-- ==== Sys2Proof/Word.lean ====
section
/-! DEFINITION. The word types of the block: bytes, 16-bit words, the instruction's address and
nibble fields, and the index of a general register (00_scope.md R9, R11; 10_state.md R21). -/

namespace Sys2Proof

/-- One memory cell, general register, timer or flags cell (00_scope.md R9). -/
abbrev Byte := BitVec 8

/-- An instruction word, `I`, `pc`, or a stack entry (00_scope.md R9, R14). -/
abbrev Word := BitVec 16

/-- The immediate `n` (30_encoding.md R81). -/
abbrev Nibble := BitVec 4

/-- The immediate `nnn` (30_encoding.md R81). -/
abbrev Addr := BitVec 12

/-- The number of a general register, a key or a flags cell: always 0x0 to 0xF (10_state.md R21, R30, R31). -/
abbrev Reg := Fin 16

/-- VF, register 0xF, the designated flag register (10_state.md R22). -/
abbrev VF : Reg := 15

end Sys2Proof
end

