-- ==== Sys2Proof/Config.lean ====
section
/-! DEFINITION. What is fixed for a run, and the free value: the two quirk profiles (00_scope.md R6)
and the random source of Cxnn (00_scope.md R10). -/

namespace Sys2Proof

/-- The Quirk Profile's two values (00_scope.md R6). Reset latches one (70_reset_and_hazards.md R320);
no instruction writes it. -/
inductive Profile where
  | chip8
  | schip
  deriving DecidableEq, Repr

/-- The random source (00_scope.md R10; 93_implementation_defined.md U1): draw number `n`. A FREE VALUE with no
body, so nothing can be proved about any draw; log 2. -/
opaque Config.randomByte : Nat → Byte

end Sys2Proof
end

