-- ==== Sys2Proof/Syntax.lean ====
section
/-! DEFINITION. The instructions: one constructor per row of spec/opcode_table.json, in the table's order,
with the operands its format has (30_encoding.md R82). -/

namespace Sys2Proof

/-- An instruction. Register operands are the fields x and y, immediates the fields n, nn and nnn (30_encoding.md R81). -/
inductive Instr where
  /-- 00E0 CLS (42_display.md R220). -/
  | cls
  /-- 00EE RET (40_control_flow.md R122). -/
  | ret
  /-- 00Cn SCD n (42_display.md R222). -/
  | scd (n : Nibble)
  /-- 00FB SCR (42_display.md R223). -/
  | scr
  /-- 00FC SCL (42_display.md R224). -/
  | scl
  /-- 00FD EXIT (40_control_flow.md R140). -/
  | exit
  /-- 00FE LOW (42_display.md R221). -/
  | low
  /-- 00FF HIGH, recognized under SCHIP only (42_display.md R221). -/
  | high
  /-- 1nnn JP nnn (40_control_flow.md R120). -/
  | jp (nnn : Addr)
  /-- 2nnn CALL nnn (40_control_flow.md R121). -/
  | call (nnn : Addr)
  /-- 3xnn SE Vx, nn (40_control_flow.md R124). -/
  | seImm (x : Reg) (nn : Byte)
  /-- 4xnn SNE Vx, nn (40_control_flow.md R125). -/
  | sneImm (x : Reg) (nn : Byte)
  /-- 5xy0 SE Vx, Vy, and 5xyn for every n (40_control_flow.md R126; 30_encoding.md R89). -/
  | seReg (x y : Reg)
  /-- 6xnn LD Vx, nn (41_arithmetic.md R161). -/
  | ldImm (x : Reg) (nn : Byte)
  /-- 7xnn ADD Vx, nn (41_arithmetic.md R162). -/
  | addImm (x : Reg) (nn : Byte)
  /-- 8xy0 LD Vx, Vy (41_arithmetic.md R163). -/
  | ldReg (x y : Reg)
  /-- 8xy1 OR Vx, Vy (41_arithmetic.md R164). -/
  | orReg (x y : Reg)
  /-- 8xy2 AND Vx, Vy (41_arithmetic.md R165). -/
  | andReg (x y : Reg)
  /-- 8xy3 XOR Vx, Vy (41_arithmetic.md R166). -/
  | xorReg (x y : Reg)
  /-- 8xy4 ADD Vx, Vy (41_arithmetic.md R168). -/
  | addReg (x y : Reg)
  /-- 8xy5 SUB Vx, Vy (41_arithmetic.md R169). -/
  | subReg (x y : Reg)
  /-- 8xy6 SHR Vx, Vy (41_arithmetic.md R171). -/
  | shr (x y : Reg)
  /-- 8xy7 SUBN Vx, Vy (41_arithmetic.md R170). -/
  | subnReg (x y : Reg)
  /-- 8xyE SHL Vx, Vy (41_arithmetic.md R173). -/
  | shl (x y : Reg)
  /-- 9xy0 SNE Vx, Vy, and 9xyn for every n (40_control_flow.md R127; 30_encoding.md R89). -/
  | sneReg (x y : Reg)
  /-- Annn LD I, nnn (41_arithmetic.md R175). -/
  | ldI (nnn : Addr)
  /-- Bnnn JP V0, nnn under CHIP8 and JP Vx, nnn under SCHIP, with x = nnn[11:8] (40_control_flow.md R130). -/
  | jpOff (nnn : Addr)
  /-- Cxnn RND Vx, nn (41_arithmetic.md R176). -/
  | rnd (x : Reg) (nn : Byte)
  /-- Dxy0 DRW Vx, Vy, 0 (42_display.md R202). -/
  | drwBig (x y : Reg)
  /-- Dxyn DRW Vx, Vy, n with n ≠ 0 (42_display.md R200). -/
  | drw (x y : Reg) (n : Nibble)
  /-- Ex9E SKP Vx (40_control_flow.md R128). -/
  | skp (x : Reg)
  /-- ExA1 SKNP Vx (40_control_flow.md R129). -/
  | sknp (x : Reg)
  /-- Fx07 LD Vx, DT (43_memory_timer_input.md R240). -/
  | ldVxDT (x : Reg)
  /-- Fx0A LD Vx, K (43_memory_timer_input.md R243). -/
  | ldVxK (x : Reg)
  /-- Fx15 LD DT, Vx (43_memory_timer_input.md R241). -/
  | ldDTVx (x : Reg)
  /-- Fx18 LD ST, Vx (43_memory_timer_input.md R242). -/
  | ldSTVx (x : Reg)
  /-- Fx1E ADD I, Vx (43_memory_timer_input.md R247). -/
  | addI (x : Reg)
  /-- Fx29 LD F, Vx (43_memory_timer_input.md R250). -/
  | ldF (x : Reg)
  /-- Fx30 LD HF, Vx (43_memory_timer_input.md R251). -/
  | ldHF (x : Reg)
  /-- Fx33 LD B, Vx (43_memory_timer_input.md R253). -/
  | ldB (x : Reg)
  /-- Fx55 LD [I], Vx (43_memory_timer_input.md R256). -/
  | ldMemVx (x : Reg)
  /-- Fx65 LD Vx, [I] (43_memory_timer_input.md R257). -/
  | ldVxMem (x : Reg)
  /-- Fx75 LD R, Vx (43_memory_timer_input.md R262). -/
  | ldRVx (x : Reg)
  /-- Fx85 LD Vx, R (43_memory_timer_input.md R263). -/
  | ldVxR (x : Reg)
  deriving DecidableEq, Repr

end Sys2Proof
end

