-- ==== Sys2Proof/WellFormed.lean ====
section
/-! DEFINITION. Which instructions are well-formed under a profile. Operand types already bound every field
(30_encoding.md R81), so two checks are left: the Dxyn row has n ≠ 0 (42_display.md R202), and HIGH exists
under SCHIP only (42_display.md R221; 30_encoding.md R88). -/

namespace Sys2Proof

/-- The Dxyn row's condition n ≠ 0: with n = 0 the word belongs to the Dxy0 row (42_display.md R202). -/
def Instr.rowCountOk : Instr → Bool
  | .drw _ _ n => n != 0
  | .cls | .ret | .scd _ | .scr | .scl | .exit | .low | .high | .jp _ | .call _ | .seImm _ _ | .sneImm _ _
  | .seReg _ _ | .ldImm _ _ | .addImm _ _ | .ldReg _ _ | .orReg _ _ | .andReg _ _ | .xorReg _ _ | .addReg _ _
  | .subReg _ _ | .shr _ _ | .subnReg _ _ | .shl _ _ | .sneReg _ _ | .ldI _ | .jpOff _ | .rnd _ _ | .drwBig _ _
  | .skp _ | .sknp _ | .ldVxDT _ | .ldVxK _ | .ldDTVx _ | .ldSTVx _ | .addI _ | .ldF _ | .ldHF _ | .ldB _
  | .ldMemVx _ | .ldVxMem _ | .ldRVx _ | .ldVxR _ => true

/-- The only difference of availability: HIGH needs PROFILE = SCHIP (60_exceptions.md R287). -/
def Instr.availableUnder (p : Profile) : Instr → Bool
  | .high => p == .schip
  | .cls | .ret | .scd _ | .scr | .scl | .exit | .low | .drw _ _ _ | .jp _ | .call _ | .seImm _ _ | .sneImm _ _
  | .seReg _ _ | .ldImm _ _ | .addImm _ _ | .ldReg _ _ | .orReg _ _ | .andReg _ _ | .xorReg _ _ | .addReg _ _
  | .subReg _ _ | .shr _ _ | .subnReg _ _ | .shl _ _ | .sneReg _ _ | .ldI _ | .jpOff _ | .rnd _ _ | .drwBig _ _
  | .skp _ | .sknp _ | .ldVxDT _ | .ldVxK _ | .ldDTVx _ | .ldSTVx _ | .addI _ | .ldF _ | .ldHF _ | .ldB _
  | .ldMemVx _ | .ldVxMem _ | .ldRVx _ | .ldVxR _ => true

/-- Well-formed under a profile: both checks hold. -/
def Instr.wellFormed (p : Profile) (i : Instr) : Bool := i.rowCountOk && i.availableUnder p

end Sys2Proof
end

