-- ==== Sys2Proof/Decode.lean ====
section
/-! DEFINITION. The decoder, a total function of the word and the profile (30_encoding.md R87, R88), its
rejections by name (R91), and after it the encoder, from the same format table (R82). -/

namespace Sys2Proof

/-! ### Fields (30_encoding.md R81) -/

/-- `op`, w[15:12]. -/
def opField (w : Word) : Nibble := w.extractLsb' 12 4
/-- `x`, w[11:8], as a register number. -/
def xField (w : Word) : Reg := (w.extractLsb' 8 4).toFin
/-- `y`, w[7:4], as a register number. -/
def yField (w : Word) : Reg := (w.extractLsb' 4 4).toFin
/-- `n`, w[3:0]. -/
def nField (w : Word) : Nibble := w.extractLsb' 0 4
/-- `nn`, w[7:0]. -/
def nnField (w : Word) : Byte := w.extractLsb' 0 8
/-- `nnn`, w[11:0]. -/
def nnnField (w : Word) : Addr := w.extractLsb' 0 12

/-! ### Decode (30_encoding.md R88) -/

/-- The sets of unrecognized words of 30_encoding.md R91, by name. -/
inductive Unrecognized where
  /-- op = 0 and none of the eight recognized forms; the machine-code call 0nnn among them. -/
  | zeroFamily
  /-- 0x00FF under PROFILE = CHIP8. -/
  | highUnderChip8
  /-- op = 8 with n in 0x8 to 0xD, or 0xF. -/
  | aluFamily
  /-- op = E with nn neither 0x9E nor 0xA1. -/
  | keyFamily
  /-- op = F with nn none of the twelve function bytes. -/
  | miscFamily
  deriving DecidableEq, Repr

/-- What decoding a word gives: one executor, or UNRECOGNIZED (30_encoding.md R87). -/
inductive Decoded where
  | instr (i : Instr)
  | unrecognized (why : Unrecognized)
  deriving DecidableEq, Repr

/-- Family 0: matched on all 16 bits, but for 00Cn on w[15:4]. -/
def decodeZero (p : Profile) (w : Word) : Decoded :=
  if w = 0x00E0 then .instr .cls
  else if w = 0x00EE then .instr .ret
  else if w.extractLsb' 4 12 = 0x00C then .instr (.scd (nField w))
  else if w = 0x00FB then .instr .scr
  else if w = 0x00FC then .instr .scl
  else if w = 0x00FD then .instr .exit
  else if w = 0x00FE then .instr .low
  else if w = 0x00FF then
    match p with
    | .schip => .instr .high
    | .chip8 => .unrecognized .highUnderChip8
  else .unrecognized .zeroFamily

/-- Family 8, on the low nibble. -/
def decodeAlu (w : Word) : Decoded :=
  let x := xField w
  let y := yField w
  match nField w with
  | 0x0#4 => .instr (.ldReg x y)
  | 0x1#4 => .instr (.orReg x y)
  | 0x2#4 => .instr (.andReg x y)
  | 0x3#4 => .instr (.xorReg x y)
  | 0x4#4 => .instr (.addReg x y)
  | 0x5#4 => .instr (.subReg x y)
  | 0x6#4 => .instr (.shr x y)
  | 0x7#4 => .instr (.subnReg x y)
  | 0xE#4 => .instr (.shl x y)
  | _ => .unrecognized .aluFamily

/-- Family D: n selects the sprite form; n = 0 is the Dxy0 row (42_display.md R202). -/
def decodeDraw (w : Word) : Decoded :=
  if nField w = 0 then .instr (.drwBig (xField w) (yField w))
  else .instr (.drw (xField w) (yField w) (nField w))

/-- Family E, on the low byte. -/
def decodeKey (w : Word) : Decoded :=
  match nnField w with
  | 0x9E#8 => .instr (.skp (xField w))
  | 0xA1#8 => .instr (.sknp (xField w))
  | _ => .unrecognized .keyFamily

/-- Family F, on the low byte. -/
def decodeMisc (w : Word) : Decoded :=
  let x := xField w
  match nnField w with
  | 0x07#8 => .instr (.ldVxDT x)
  | 0x0A#8 => .instr (.ldVxK x)
  | 0x15#8 => .instr (.ldDTVx x)
  | 0x18#8 => .instr (.ldSTVx x)
  | 0x1E#8 => .instr (.addI x)
  | 0x29#8 => .instr (.ldF x)
  | 0x30#8 => .instr (.ldHF x)
  | 0x33#8 => .instr (.ldB x)
  | 0x55#8 => .instr (.ldMemVx x)
  | 0x65#8 => .instr (.ldVxMem x)
  | 0x75#8 => .instr (.ldRVx x)
  | 0x85#8 => .instr (.ldVxR x)
  | _ => .unrecognized .miscFamily

/-- The complete decode (30_encoding.md R88); 5xyn and 9xyn ignore n (R89). -/
def decode (p : Profile) (w : Word) : Decoded :=
  match opField w with
  | 0x0#4 => decodeZero p w
  | 0x1#4 => .instr (.jp (nnnField w))
  | 0x2#4 => .instr (.call (nnnField w))
  | 0x3#4 => .instr (.seImm (xField w) (nnField w))
  | 0x4#4 => .instr (.sneImm (xField w) (nnField w))
  | 0x5#4 => .instr (.seReg (xField w) (yField w))
  | 0x6#4 => .instr (.ldImm (xField w) (nnField w))
  | 0x7#4 => .instr (.addImm (xField w) (nnField w))
  | 0x8#4 => decodeAlu w
  | 0x9#4 => .instr (.sneReg (xField w) (yField w))
  | 0xA#4 => .instr (.ldI (nnnField w))
  | 0xB#4 => .instr (.jpOff (nnnField w))
  | 0xC#4 => .instr (.rnd (xField w) (nnField w))
  | 0xD#4 => decodeDraw w
  | 0xE#4 => decodeKey w
  | _ => decodeMisc w

/-! ### Encode (30_encoding.md R82) -/

/-- Format A: op:4 nnn:12. -/
def formatA (op : Nibble) (nnn : Addr) : Word := op ++ nnn
/-- Formats XB and XF: op:4 x:4 nn:8. -/
def formatXB (op : Nibble) (x : Reg) (nn : Byte) : Word := op ++ BitVec.ofFin (w := 4) x ++ nn
/-- Formats XY and XYN: op:4 x:4 y:4 n:4. -/
def formatXY (op : Nibble) (x y : Reg) (n : Nibble) : Word :=
  op ++ BitVec.ofFin (w := 4) x ++ BitVec.ofFin (w := 4) y ++ n
/-- Format S: 0000 0000 1100 n:4. -/
def formatS (n : Nibble) : Word := (0x00C : Addr) ++ n

/-- The word of an instruction, from its rule's encoding; 5xy0 and 9xy0 are written with n = 0. -/
def encode : Instr → Word
  | .cls => 0x00E0
  | .ret => 0x00EE
  | .scd n => formatS n
  | .scr => 0x00FB
  | .scl => 0x00FC
  | .exit => 0x00FD
  | .low => 0x00FE
  | .high => 0x00FF
  | .jp nnn => formatA 0x1 nnn
  | .call nnn => formatA 0x2 nnn
  | .seImm x nn => formatXB 0x3 x nn
  | .sneImm x nn => formatXB 0x4 x nn
  | .seReg x y => formatXY 0x5 x y 0x0
  | .ldImm x nn => formatXB 0x6 x nn
  | .addImm x nn => formatXB 0x7 x nn
  | .ldReg x y => formatXY 0x8 x y 0x0
  | .orReg x y => formatXY 0x8 x y 0x1
  | .andReg x y => formatXY 0x8 x y 0x2
  | .xorReg x y => formatXY 0x8 x y 0x3
  | .addReg x y => formatXY 0x8 x y 0x4
  | .subReg x y => formatXY 0x8 x y 0x5
  | .shr x y => formatXY 0x8 x y 0x6
  | .subnReg x y => formatXY 0x8 x y 0x7
  | .shl x y => formatXY 0x8 x y 0xE
  | .sneReg x y => formatXY 0x9 x y 0x0
  | .ldI nnn => formatA 0xA nnn
  | .jpOff nnn => formatA 0xB nnn
  | .rnd x nn => formatXB 0xC x nn
  | .drwBig x y => formatXY 0xD x y 0x0
  | .drw x y n => formatXY 0xD x y n
  | .skp x => formatXB 0xE x 0x9E
  | .sknp x => formatXB 0xE x 0xA1
  | .ldVxDT x => formatXB 0xF x 0x07
  | .ldVxK x => formatXB 0xF x 0x0A
  | .ldDTVx x => formatXB 0xF x 0x15
  | .ldSTVx x => formatXB 0xF x 0x18
  | .addI x => formatXB 0xF x 0x1E
  | .ldF x => formatXB 0xF x 0x29
  | .ldHF x => formatXB 0xF x 0x30
  | .ldB x => formatXB 0xF x 0x33
  | .ldMemVx x => formatXB 0xF x 0x55
  | .ldVxMem x => formatXB 0xF x 0x65
  | .ldRVx x => formatXB 0xF x 0x75
  | .ldVxR x => formatXB 0xF x 0x85

/-! ### Bytes and the opcode table's numbering -/

/-- A word from its two bytes: the byte at the lower address is the most significant (20_memory.md R63, R65). -/
def wordOfBytes (hi lo : Byte) : Word := hi ++ lo
/-- The byte of a word stored at the lower address. -/
def hiByte (w : Word) : Byte := w.extractLsb' 8 8
/-- The byte of a word stored at the higher address. -/
def loByte (w : Word) : Byte := w.extractLsb' 0 8

/-- The 16-bit word whose low `nbits` bits are those of `w` and whose other bits are 0. -/
def tableWord (nbits w : Nat) : Word := BitVec.ofNat 16 (w % 2 ^ nbits)

/-- What the decoder reads from the bytes of an opcode-table word. It decodes under SCHIP, where every row of the
table is recognized (30_encoding.md R88); log 12. -/
def decodeTableWord (nbits w : Nat) : Option Instr :=
  match decode .schip (wordOfBytes (hiByte (tableWord nbits w)) (loByte (tableWord nbits w))) with
  | .instr i => some i
  | .unrecognized _ => none

end Sys2Proof
end

