-- ==== Sys2Proof/Machine/State.lean ====
section
/-! DEFINITION. The machine's state as plain data, its diagnostics, its reasons to stop, and reset (10_state.md R20
to R39; 60_exceptions.md R281, R282; 70_reset_and_hazards.md R320). -/

namespace Sys2Proof.Machine

/-- Memory: (address, byte) pairs in rising order of address, none equal to what an unlisted address reads as
(`Memory.wf`, in Machine/Ops.lean). An unlisted address reads as its contents at reset (20_memory.md R69). -/
abbrev Memory := List Host.Cell

/-- The display plane: 64 rows of 128 one-bit cells, `disp[c][r]` being bit `c` of row `r` (10_state.md R26). -/
abbrev Display := Vector (BitVec 128) 64

/-- A diagnostic record (60_exceptions.md R281, R282). -/
inductive Diagnostic where
  /-- Code 1, by Step: `ipc` and the word. -/
  | unrecognizedOpcode (ipc w : Word)
  /-- Code 2, by 2nnn with sp = 16. -/
  | stackOverflow (ipc w : Word)
  /-- Code 3, by 00EE with sp = 0. -/
  | stackUnderflow (ipc w : Word)
  /-- Code 4, by LoadRom: the image length. -/
  | loadTooLarge (length : Nat)
  deriving DecidableEq, Repr

/-- The state of one core instance. -/
structure State where
  /-- PROFILE, latched by Reset and written by no instruction (00_scope.md R6). -/
  profile : Profile
  /-- `mem` (10_state.md R20). -/
  mem : Memory
  /-- `V[0]` to `V[15]` (10_state.md R21); `V[15]` is VF (R22). -/
  V : Vector Byte 16
  /-- `I` (10_state.md R23). -/
  I : Word
  /-- `pc` (10_state.md R24). -/
  pc : Word
  /-- `stack[0]` to `stack[15]` (10_state.md R25). -/
  stack : Vector Word 16
  /-- `sp`, the count of stack entries in use, 0 to 16 (10_state.md R25). -/
  sp : Fin 17
  /-- `disp` (10_state.md R26). -/
  disp : Display
  /-- `hires` (10_state.md R27). -/
  hires : Bool
  /-- `disp_changed` (10_state.md R28). -/
  dispChanged : Bool
  /-- `DT`, the delay timer (10_state.md R29). -/
  DT : Byte
  /-- `ST`, the sound timer (10_state.md R29). -/
  ST : Byte
  /-- `key[0]` to `key[15]`, true while held (10_state.md R30). -/
  key : Vector Bool 16
  /-- `flags[0]` to `flags[15]`, of which 0 to 7 are reachable (10_state.md R31). -/
  flags : Vector Byte 16
  /-- `waiting` (10_state.md R32). -/
  waiting : Bool
  /-- `wait_reg` (10_state.md R33). -/
  waitReg : Reg
  /-- `halted` (10_state.md R34). -/
  halted : Bool
  /-- The diagnostic channel's records, oldest first: an output, which no instruction reads (60_exceptions.md R281; log 3). -/
  diag : List Diagnostic
  /-- MODEL'S OWN FIELD: how many random draws were taken; the next one is `Config.randomByte draws` (00_scope.md R10; log 2). -/
  draws : Nat
  deriving DecidableEq, Repr

/-- Faults: there are none, for this block never stops on any word or operand (60_exceptions.md R280). -/
inductive Fault where
  deriving DecidableEq, Repr

/-- Refusals. -/
inductive Refusal where
  /-- Raised by an arm of `exec` whose instruction has no meaning yet; no arm does. Safe: the model stops. -/
  | notModelled (mnemonic : String)
  deriving DecidableEq, Repr

/-- The outcome of a step. -/
abbrev Result := Host.Outcome State Fault Refusal

/-- The state after Reset(p) (10_state.md R39; 70_reset_and_hazards.md R320): everything zero but pc and the fonts,
which are what unlisted memory reads as. -/
def State.resetTo (p : Profile) : State where
  profile := p
  mem := []
  V := Vector.replicate 16 0
  I := 0
  pc := 0x200
  stack := Vector.replicate 16 0
  sp := 0
  disp := Vector.replicate 64 0
  hires := false
  dispChanged := false
  DT := 0
  ST := 0
  key := Vector.replicate 16 false
  flags := Vector.replicate 16 0
  waiting := false
  waitReg := 0
  halted := false
  diag := []
  draws := 0

/-- The machine right after reset: Reset(SCHIP), the profile under which every row of the opcode table is
recognized. DESIGN CHOICE: Reset's argument is the host's (60_exceptions.md R298); log 1. -/
def State.reset : State := State.resetTo .schip

end Sys2Proof.Machine
end

