-- ==== Sys2Proof/Machine/Fonts.lean ====
section
/-! DEFINITION. The parameters LORES_FONT and HIRES_FONT at their default bytes, and what an unlisted memory
address reads as: its contents at reset (00_scope.md R8; 10_state.md R36, R39; 20_memory.md R69). The glyph bytes are
the spec's own default, which it marks as general knowledge; UNVERIFIED, log 4. -/

namespace Sys2Proof.Machine

/-- LORES_FONT, glyphs 0 to 7, five bytes each. -/
def loresFontLow : List Byte :=
  [0xF0, 0x90, 0x90, 0x90, 0xF0] ++
  [0x20, 0x60, 0x20, 0x20, 0x70] ++
  [0xF0, 0x10, 0xF0, 0x80, 0xF0] ++
  [0xF0, 0x10, 0xF0, 0x10, 0xF0] ++
  [0x90, 0x90, 0xF0, 0x10, 0x10] ++
  [0xF0, 0x80, 0xF0, 0x10, 0xF0] ++
  [0xF0, 0x80, 0xF0, 0x90, 0xF0] ++
  [0xF0, 0x10, 0x20, 0x40, 0x40]

/-- LORES_FONT, glyphs 8 to F. -/
def loresFontHigh : List Byte :=
  [0xF0, 0x90, 0xF0, 0x90, 0xF0] ++
  [0xF0, 0x90, 0xF0, 0x10, 0xF0] ++
  [0xF0, 0x90, 0xF0, 0x90, 0x90] ++
  [0xE0, 0x90, 0xE0, 0x90, 0xE0] ++
  [0xF0, 0x80, 0x80, 0x80, 0xF0] ++
  [0xE0, 0x90, 0x90, 0x90, 0xE0] ++
  [0xF0, 0x80, 0xF0, 0x80, 0xF0] ++
  [0xF0, 0x80, 0xF0, 0x80, 0x80]

/-- LORES_FONT: 80 bytes. -/
def loresFont : List Byte := loresFontLow ++ loresFontHigh

/-- HIRES_FONT, glyphs 0 to 7, ten bytes each. -/
def hiresFontLow : List Byte :=
  [0xFF, 0xFF, 0xC3, 0xC3, 0xC3, 0xC3, 0xC3, 0xC3, 0xFF, 0xFF] ++
  [0x18, 0x78, 0x78, 0x18, 0x18, 0x18, 0x18, 0x18, 0xFF, 0xFF] ++
  [0xFF, 0xFF, 0x03, 0x03, 0xFF, 0xFF, 0xC0, 0xC0, 0xFF, 0xFF] ++
  [0xFF, 0xFF, 0x03, 0x03, 0xFF, 0xFF, 0x03, 0x03, 0xFF, 0xFF] ++
  [0xC3, 0xC3, 0xC3, 0xC3, 0xFF, 0xFF, 0x03, 0x03, 0x03, 0x03] ++
  [0xFF, 0xFF, 0xC0, 0xC0, 0xFF, 0xFF, 0x03, 0x03, 0xFF, 0xFF] ++
  [0xFF, 0xFF, 0xC0, 0xC0, 0xFF, 0xFF, 0xC3, 0xC3, 0xFF, 0xFF] ++
  [0xFF, 0xFF, 0x03, 0x03, 0x06, 0x0C, 0x18, 0x18, 0x18, 0x18]

/-- HIRES_FONT, glyphs 8 to F. -/
def hiresFontHigh : List Byte :=
  [0xFF, 0xFF, 0xC3, 0xC3, 0xFF, 0xFF, 0xC3, 0xC3, 0xFF, 0xFF] ++
  [0xFF, 0xFF, 0xC3, 0xC3, 0xFF, 0xFF, 0x03, 0x03, 0xFF, 0xFF] ++
  [0x7E, 0xFF, 0xC3, 0xC3, 0xC3, 0xFF, 0xFF, 0xC3, 0xC3, 0xC3] ++
  [0xFC, 0xFC, 0xC3, 0xC3, 0xFC, 0xFC, 0xC3, 0xC3, 0xFC, 0xFC] ++
  [0x3C, 0xFF, 0xC3, 0xC0, 0xC0, 0xC0, 0xC0, 0xC3, 0xFF, 0x3C] ++
  [0xFC, 0xFE, 0xC3, 0xC3, 0xC3, 0xC3, 0xC3, 0xC3, 0xFE, 0xFC] ++
  [0xFF, 0xFF, 0xC0, 0xC0, 0xFF, 0xFF, 0xC0, 0xC0, 0xFF, 0xFF] ++
  [0xFF, 0xFF, 0xC0, 0xC0, 0xFF, 0xFF, 0xC0, 0xC0, 0xC0, 0xC0]

/-- HIRES_FONT: 160 bytes. -/
def hiresFont : List Byte := hiresFontLow ++ hiresFontHigh

/-- Where LORES_FONT starts (00_scope.md R8). -/
def loresBase : Nat := 0x000
/-- Where HIRES_FONT starts (00_scope.md R8; conflict C2). -/
def hiresBase : Nat := 0x050

/-- The contents of memory at reset, address by address (10_state.md R39): LORES_FONT at 0x000 to 0x04F, HIRES_FONT at
0x050 to 0x0EF, 0 elsewhere. It is what an unlisted address reads as. -/
def resetByte (a : Nat) : Byte :=
  if a < hiresBase then loresFont.getD (a - loresBase) 0
  else if a < hiresBase + 160 then hiresFont.getD (a - hiresBase) 0
  else 0

end Sys2Proof.Machine
end

