-- ==== Sys2Proof/Machine/Ops.lean ====
section
/-! DEFINITION. The named operations over memory, registers, the call stack and the diagnostic channel. This block has
no exceptions (60_exceptions.md R280): the one shared operation for an abnormal event is `State.report`, which
records a diagnostic and changes nothing else (R281). -/

namespace Sys2Proof.Machine

/-! ### Memory (20_memory.md R60 to R64) -/

/-- The byte at an address: the listed one, or else its contents at reset. -/
def Memory.read : Memory → Nat → Byte
  | [], a => resetByte a
  | (k, v) :: rest, a => if a = k then v else Memory.read rest a

/-- Write a byte, keeping the canonical form: writing what an unlisted address reads as removes the entry. -/
def Memory.write : Memory → Nat → Byte → Memory
  | [], a, b => if b = resetByte a then [] else [(a, b)]
  | (k, v) :: rest, a, b =>
    if a < k then (if b = resetByte a then (k, v) :: rest else (a, b) :: (k, v) :: rest)
    else if a = k then (if b = resetByte a then rest else (a, b) :: rest)
    else (k, v) :: Memory.write rest a b

/-- The canonical form: addresses in 0x000 to 0xFFF, strictly rising, and no entry equal to what its address reads as unlisted. -/
def Memory.wf : Memory → Bool
  | [] => true
  | (k, v) :: rest => decide (k < 4096) && v != resetByte k && rest.all (fun c => decide (k < c.1)) && Memory.wf rest

/-- Every address is reduced to its low 12 bits before use (20_memory.md R62). -/
def effAddr (a : Word) : Nat := a.toNat % 4096

/-- `MemRead(a, 1)` (20_memory.md R63). -/
def State.memRead (s : State) (a : Word) : Byte := s.mem.read (effAddr a)

/-- `MemRead(a, 2)`: big-endian, each byte's address reduced separately (20_memory.md R63). -/
def State.memRead2 (s : State) (a : Word) : Word := wordOfBytes (s.memRead a) (s.memRead (a + 1))

/-- `MemWrite(a, 1, v)` (20_memory.md R64). -/
def State.memWrite (s : State) (a : Word) (b : Byte) : State := { s with mem := s.mem.write (effAddr a) b }

/-- The address I + k, before its reduction (20_memory.md R62). -/
def State.indexPlus (s : State) (k : Nat) : Word := s.I + BitVec.ofNat 16 k

/-! ### Registers (10_state.md R21 to R24, R29 to R34) -/

/-- `V[i]` (10_state.md R21). -/
def State.getV (s : State) (i : Reg) : Byte := s.V[i.val]
/-- `V[i] <- b`; no register is hard-wired (10_state.md R21). -/
def State.setV (s : State) (i : Reg) (b : Byte) : State := { s with V := s.V.set i.val b i.isLt }
/-- `I <- a`. -/
def State.setI (s : State) (a : Word) : State := { s with I := a }
/-- `pc <- target`. -/
def State.setPc (s : State) (a : Word) : State := { s with pc := a }
/-- `DT <- b`. -/
def State.setDT (s : State) (b : Byte) : State := { s with DT := b }
/-- `ST <- b`. -/
def State.setST (s : State) (b : Byte) : State := { s with ST := b }
/-- `hires <- b`. -/
def State.setHires (s : State) (b : Bool) : State := { s with hires := b }
/-- `halted <- b`. -/
def State.setHalted (s : State) (b : Bool) : State := { s with halted := b }
/-- `waiting <- b`. -/
def State.setWaiting (s : State) (b : Bool) : State := { s with waiting := b }
/-- `wait_reg <- x`. -/
def State.setWaitReg (s : State) (x : Reg) : State := { s with waitReg := x }
/-- `key[k]`. -/
def State.getKey (s : State) (k : Reg) : Bool := s.key[k.val]
/-- `key[k] <- b`. -/
def State.setKey (s : State) (k : Reg) (b : Bool) : State := { s with key := s.key.set k.val b k.isLt }
/-- `flags[j]`. -/
def State.getFlag (s : State) (j : Reg) : Byte := s.flags[j.val]
/-- `flags[j] <- b`. -/
def State.setFlag (s : State) (j : Reg) (b : Byte) : State := { s with flags := s.flags.set j.val b j.isLt }
/-- Write the display; every instruction that does so sets disp_changed (10_state.md R28). -/
def State.setDisp (s : State) (d : Display) : State := { s with disp := d, dispChanged := true }
/-- `disp_changed <- b`. -/
def State.setDispChanged (s : State) (b : Bool) : State := { s with dispChanged := b }

/-- The result into V[x] first and the flag into VF second, so that VF ends as the flag when x = 15 (41_arithmetic.md R160). -/
def State.setResultFlag (s : State) (x : Reg) (result flag : Byte) : State := (s.setV x result).setV VF flag

/-! ### Program counter and skips -/

/-- pc advanced by one instruction width, 2 bytes, mod 2^16 (30_encoding.md R85). -/
def State.advancePc (s : State) : State := s.setPc (s.pc + 2)

/-- `Skip(cond)` (40_control_flow.md R123). -/
def State.skipIf (s : State) (cond : Bool) : State := if cond then s.advancePc else s

/-- The address the executing instruction was fetched from: an executor sees pc = ipc + 2 (00_scope.md R13; log 7). -/
def State.ipc (s : State) : Word := s.pc - 2

/-! ### Diagnostics (60_exceptions.md R281) -/

/-- `raise Diagnostic`: append one record to the channel; nothing else changes. -/
def State.report (s : State) (d : Diagnostic) : State := { s with diag := s.diag ++ [d] }

/-- A diagnostic's code (60_exceptions.md R282). -/
def Diagnostic.code : Diagnostic → Nat
  | .unrecognizedOpcode _ _ => 1
  | .stackOverflow _ _ => 2
  | .stackUnderflow _ _ => 3
  | .loadTooLarge _ => 4

/-! ### Call stack (10_state.md R25) -/

/-- `stack[j]`. -/
def State.getStack (s : State) (j : Fin 16) : Word := s.stack[j.val]

/-- `stack[sp] <- pc; sp <- sp + 1`, where sp < 16 (40_control_flow.md R121). -/
def State.pushPc (s : State) (h : s.sp.val < 16) : State :=
  { s with stack := s.stack.set s.sp.val s.pc h, sp := ⟨s.sp.val + 1, by omega⟩ }

/-- `sp <- sp - 1; pc <- stack[sp]`, where sp > 0; the entry keeps its value (40_control_flow.md R122; 10_state.md R25). -/
def State.popPc (s : State) (h : 0 < s.sp.val) : State :=
  { s with sp := ⟨s.sp.val - 1, by omega⟩, pc := s.stack[s.sp.val - 1]'(by omega) }

/-! ### Block transfers (43_memory_timer_input.md R256, R257, R262, R263) -/

/-- All register numbers, rising. -/
def allRegs : List Reg := [0, 1, 2, 3, 4, 5, 6, 7, 8, 9, 10, 11, 12, 13, 14, 15]

/-- 0, 1, .., x: the order of a block transfer. -/
def regsUpTo (x : Reg) : List Reg := allRegs.filter (fun i => decide (i ≤ x))

/-- `for i in rs: MemWrite(I + i, 1, V[i])`. -/
def State.storeRegs (s : State) (rs : List Reg) : State :=
  rs.foldl (fun t i => t.memWrite (s.indexPlus i.val) (s.getV i)) s

/-- `for i in rs: V[i] <- MemRead(I + i, 1)`. -/
def State.loadRegs (s : State) (rs : List Reg) : State :=
  rs.foldl (fun t i => t.setV i (s.memRead (s.indexPlus i.val))) s

/-- `for i in rs: flags[i] <- V[i]`. -/
def State.saveFlags (s : State) (rs : List Reg) : State :=
  rs.foldl (fun t i => t.setFlag i (s.getV i)) s

/-- `for i in rs: V[i] <- flags[i]`. -/
def State.restoreFlags (s : State) (rs : List Reg) : State :=
  rs.foldl (fun t i => t.setV i (s.getFlag i)) s

/-! ### Random draws (00_scope.md R10) -/

/-- The draw this execution takes: a free value. -/
def State.randomByte (s : State) : Byte := Config.randomByte s.draws
/-- A draw has been taken, so the next one is fresh. -/
def State.countDraw (s : State) : State := { s with draws := s.draws + 1 }

end Sys2Proof.Machine
end

