-- ==== Sys2Proof/Machine/Flags.lean ====
section
/-! DEFINITION. Every value an instruction writes to VF as a flag, and the toggle LOGIC_VF_RESET. -/

namespace Sys2Proof.Machine

/-- A one-bit flag as VF holds it. -/
def flagByte (b : Bool) : Byte := if b then 1 else 0

/-- The carry of 8xy4: the unsigned sum exceeds 255 (41_arithmetic.md R168). -/
def carryFlag (a b : Byte) : Byte := flagByte (decide (a.toNat + b.toNat > 255))

/-- No borrow: 1 when the minuend is at least the subtrahend (41_arithmetic.md R169, R170, R174). -/
def noBorrowFlag (minuend subtrahend : Byte) : Byte := flagByte (decide (minuend.toNat ≥ subtrahend.toNat))

/-- The bit 8xy6 shifts out, bit 0 (41_arithmetic.md R171). -/
def shrFlag (src : Byte) : Byte := flagByte (src.getLsbD 0)

/-- The bit 8xyE shifts out, bit 7 (41_arithmetic.md R173). -/
def shlFlag (src : Byte) : Byte := flagByte (src.getLsbD 7)

/-- Fx1E under SCHIP: the untruncated sum exceeds 0x0FFF (43_memory_timer_input.md R247). -/
def indexFlag (i : Word) (b : Byte) : Byte := flagByte (decide (i.toNat + b.toNat > 0x0FFF))

/-- LOGIC_VF_RESET, a toggle per profile, true under both on this hardware (00_scope.md R7; 41_arithmetic.md R167). -/
def logicVfReset : Profile → Bool
  | .chip8 => true
  | .schip => true

/-- The collision value of Dxyn (42_display.md R205): in high resolution the colliding rows plus the rows clipped off the
bottom, `max(0, y0 + rows - height)`; in low resolution 1 if any row collided, else 0. -/
def collisionFlag (hires : Bool) (hitRows y0 rows height : Nat) : Byte :=
  if hires then BitVec.ofNat 8 (hitRows + (y0 + rows - height)) else flagByte (decide (hitRows ≠ 0))

end Sys2Proof.Machine
end

