-- ==== Sys2Proof/Machine/Operands.lean ====
section
/-! DEFINITION. How operands are formed: immediates, low-nibble indexes, the profile-dependent sources of the
shifts and of Bnnn, font addresses, decimal digits, and the ranges of the block transfers. -/

namespace Sys2Proof.Machine

/-- An address immediate zero-extended to 16 bits (30_encoding.md R83). -/
def zextAddr (nnn : Addr) : Word := nnn.setWidth 16
/-- A byte zero-extended to 16 bits. -/
def zextByte (b : Byte) : Word := b.setWidth 16
/-- A key's hexadecimal value as a byte (43_memory_timer_input.md R244). -/
def keyByte (k : Reg) : Byte := BitVec.ofNat 8 k.val

/-- `V[x][3:0]`: the key or digit a register names (40_control_flow.md R128; 43_memory_timer_input.md R250). -/
def lowNibble (b : Byte) : Reg := (b.extractLsb' 0 4).toFin

/-- The register Bnnn adds: V0 under CHIP8, V[x] with x = nnn[11:8] under SCHIP (40_control_flow.md R130). -/
def jumpReg (p : Profile) (nnn : Addr) : Reg :=
  match p with
  | .chip8 => 0
  | .schip => (nnn.extractLsb' 8 4).toFin

/-- What 8xy6 and 8xyE shift: V[x] under SCHIP, V[y] under CHIP8 (41_arithmetic.md R171, R173). -/
def State.shiftSource (s : State) (x y : Reg) : Byte :=
  match s.profile with
  | .schip => s.getV x
  | .chip8 => s.getV y

/-- The low-resolution glyph address of a digit (43_memory_timer_input.md R250). -/
def loresGlyph (digit : Reg) : Word := BitVec.ofNat 16 (loresBase + 5 * digit.val)
/-- The high-resolution glyph address of a digit (43_memory_timer_input.md R251). -/
def hiresGlyph (digit : Reg) : Word := BitVec.ofNat 16 (hiresBase + 10 * digit.val)

/-- `v / 100` (43_memory_timer_input.md R253). -/
def hundreds (v : Byte) : Byte := BitVec.ofNat 8 (v.toNat / 100)
/-- `(v / 10) mod 10`. -/
def tens (v : Byte) : Byte := BitVec.ofNat 8 (v.toNat / 10 % 10)
/-- `v mod 10`. -/
def units (v : Byte) : Byte := BitVec.ofNat 8 (v.toNat % 10)

/-- I after Fx55 and Fx65: plus x + 1 mod 2^16 under CHIP8, unchanged under SCHIP (43_memory_timer_input.md R256, R257). -/
def State.indexAfterTransfer (s : State) (x : Reg) : Word :=
  match s.profile with
  | .chip8 => s.indexPlus (x.val + 1)
  | .schip => s.I

/-- The last register of Fx75 and Fx85, min(x, 7) (43_memory_timer_input.md R262). -/
def flagsLimit (x : Reg) : Reg := if x ≤ 7 then x else 7

/-- A sprite form: how many rows, and how wide. -/
structure SpriteForm where
  rows : Nat
  cols : Nat
  deriving DecidableEq, Repr

/-- `Form(n, PROFILE)` (42_display.md R202). -/
def spriteForm (p : Profile) (n : Nibble) : SpriteForm :=
  if n = 0 then
    match p with
    | .schip => { rows := 16, cols := 16 }
    | .chip8 => { rows := 0, cols := 8 }
  else { rows := n.toNat, cols := 8 }

/-- `Row(r, cols)`: one byte at I + r, or two at I + 2r (42_display.md R203). -/
def State.spriteRow (s : State) (cols r : Nat) : Word :=
  if cols = 16 then s.memRead2 (s.indexPlus (2 * r)) else zextByte (s.memRead (s.indexPlus r))

end Sys2Proof.Machine
end

