-- ==== Sys2Proof/Machine/Arithmetic.lean ====
section
/-! DEFINITION. Immediates, arithmetic and logic, the load of I, and random (41_arithmetic.md). Sources are read first, the
result is written next, the flag last (R160). -/

namespace Sys2Proof.Machine

/-- 6xnn LD Vx, nn (41_arithmetic.md R161). -/
def execLdImm (x : Reg) (nn : Byte) (s : State) : Result := .next (s.setV x nn)

/-- 7xnn ADD Vx, nn (41_arithmetic.md R162): VF is not written as a carry. -/
def execAddImm (x : Reg) (nn : Byte) (s : State) : Result := .next (s.setV x (s.getV x + nn))

/-- 8xy0 LD Vx, Vy (41_arithmetic.md R163). -/
def execLdReg (x y : Reg) (s : State) : Result := .next (s.setV x (s.getV y))

/-- The result of 8xy1, 8xy2 and 8xy3, then VF cleared if LOGIC_VF_RESET (41_arithmetic.md R167). -/
def State.setLogic (s : State) (x : Reg) (result : Byte) : State :=
  if logicVfReset s.profile then s.setResultFlag x result 0 else s.setV x result

/-- 8xy1 OR Vx, Vy (41_arithmetic.md R164). -/
def execOr (x y : Reg) (s : State) : Result := .next (s.setLogic x (s.getV x ||| s.getV y))

/-- 8xy2 AND Vx, Vy (41_arithmetic.md R165). -/
def execAnd (x y : Reg) (s : State) : Result := .next (s.setLogic x (s.getV x &&& s.getV y))

/-- 8xy3 XOR Vx, Vy (41_arithmetic.md R166). -/
def execXor (x y : Reg) (s : State) : Result := .next (s.setLogic x (s.getV x ^^^ s.getV y))

/-- 8xy4 ADD Vx, Vy (41_arithmetic.md R168). -/
def execAdd (x y : Reg) (s : State) : Result :=
  .next (s.setResultFlag x (s.getV x + s.getV y) (carryFlag (s.getV x) (s.getV y)))

/-- 8xy5 SUB Vx, Vy (41_arithmetic.md R169). -/
def execSub (x y : Reg) (s : State) : Result :=
  .next (s.setResultFlag x (s.getV x - s.getV y) (noBorrowFlag (s.getV x) (s.getV y)))

/-- 8xy7 SUBN Vx, Vy (41_arithmetic.md R170). -/
def execSubn (x y : Reg) (s : State) : Result :=
  .next (s.setResultFlag x (s.getV y - s.getV x) (noBorrowFlag (s.getV y) (s.getV x)))

/-- 8xy6 SHR Vx, Vy (41_arithmetic.md R171, R172). -/
def execShr (x y : Reg) (s : State) : Result :=
  .next (s.setResultFlag x (s.shiftSource x y >>> 1) (shrFlag (s.shiftSource x y)))

/-- 8xyE SHL Vx, Vy (41_arithmetic.md R173, R172). -/
def execShl (x y : Reg) (s : State) : Result :=
  .next (s.setResultFlag x (s.shiftSource x y <<< 1) (shlFlag (s.shiftSource x y)))

/-- Annn LD I, nnn (41_arithmetic.md R175). -/
def execLdI (nnn : Addr) (s : State) : Result := .next (s.setI (zextAddr nnn))

/-- Cxnn RND Vx, nn (41_arithmetic.md R176): one fresh draw, a free value (00_scope.md R10). -/
def execRnd (x : Reg) (nn : Byte) (s : State) : Result := .next ((s.setV x (s.randomByte &&& nn)).countDraw)

end Sys2Proof.Machine
end

