-- ==== Sys2Proof/Machine/ControlFlow.lean ====
section
/-! DEFINITION. Control flow: jumps, the call stack, skips, exit (40_control_flow.md). A meaning runs on the state whose
pc has been advanced past the instruction (00_scope.md R13). -/

namespace Sys2Proof.Machine

/-- 1nnn JP nnn (40_control_flow.md R120). -/
def execJp (nnn : Addr) (s : State) : Result := .next (s.setPc (zextAddr nnn))

/-- 2nnn CALL nnn (40_control_flow.md R121): with sp = 16 the whole call is suppressed and reported. -/
def execCall (nnn : Addr) (s : State) : Result :=
  if h : s.sp.val < 16 then .next ((s.pushPc h).setPc (zextAddr nnn))
  else .next (s.report (.stackOverflow s.ipc (encode (.call nnn))))

/-- 00EE RET (40_control_flow.md R122): with sp = 0 a no-op, reported. -/
def execRet (s : State) : Result :=
  if h : 0 < s.sp.val then .next (s.popPc h)
  else .next (s.report (.stackUnderflow s.ipc (encode .ret)))

/-- 3xnn SE Vx, nn (40_control_flow.md R124). -/
def execSeImm (x : Reg) (nn : Byte) (s : State) : Result := .next (s.skipIf (s.getV x == nn))

/-- 4xnn SNE Vx, nn (40_control_flow.md R125). -/
def execSneImm (x : Reg) (nn : Byte) (s : State) : Result := .next (s.skipIf (s.getV x != nn))

/-- 5xy0 SE Vx, Vy (40_control_flow.md R126). -/
def execSeReg (x y : Reg) (s : State) : Result := .next (s.skipIf (s.getV x == s.getV y))

/-- 9xy0 SNE Vx, Vy (40_control_flow.md R127). -/
def execSneReg (x y : Reg) (s : State) : Result := .next (s.skipIf (s.getV x != s.getV y))

/-- Ex9E SKP Vx (40_control_flow.md R128). -/
def execSkp (x : Reg) (s : State) : Result := .next (s.skipIf (s.getKey (lowNibble (s.getV x))))

/-- ExA1 SKNP Vx (40_control_flow.md R129). -/
def execSknp (x : Reg) (s : State) : Result := .next (s.skipIf (!s.getKey (lowNibble (s.getV x))))

/-- Bnnn JP V0/Vx, nnn (40_control_flow.md R130). -/
def execJpOff (nnn : Addr) (s : State) : Result :=
  .next (s.setPc (zextAddr nnn + zextByte (s.getV (jumpReg s.profile nnn))))

/-- 00FD EXIT (40_control_flow.md R140). -/
def execExit (s : State) : Result := .next (s.setHalted true)

end Sys2Proof.Machine
end

