-- ==== Sys2Proof/Machine/Plane.lean ====
section
/-! DEFINITION. The display plane: its cells, its size, clearing, scrolling, and the sprite XOR-blit with its
collision detector (10_state.md R26; 42_display.md R200 to R205, R220 to R224). Column c of a row is bit c; log 8. -/

namespace Sys2Proof.Machine

/-- W, the display's width (00_scope.md R12). -/
def planeWidth (hires : Bool) : Nat := if hires then 128 else 64
/-- H, the display's height (00_scope.md R12). -/
def planeHeight (hires : Bool) : Nat := if hires then 64 else 32

/-- Row r of the plane; there are rows 0 to 63. -/
def Display.row (d : Display) (r : Nat) : BitVec 128 := if h : r < 64 then d[r] else 0

/-- `disp[c][r]`. -/
def Display.cell (d : Display) (c r : Nat) : Bool := (d.row r).getLsbD c

/-- The plane with the given rows. -/
def Display.ofRows (f : Nat → BitVec 128) : Display := Vector.ofFn fun r : Fin 64 => f r.val

/-- Every cell 0 (42_display.md R220). -/
def Display.blank : Display := Vector.replicate 64 0

/-- The columns below w. -/
def columnMask (w : Nat) : BitVec 128 := BitVec.ofNat 128 (2 ^ w - 1)

/-- A row whose columns below w are `new`'s and whose other columns, outside the display, are `old`'s. -/
def blendRow (w : Nat) (new old : BitVec 128) : BitVec 128 := (new &&& columnMask w) ||| (old &&& ~~~ columnMask w)

/-- Change the rows of the W x H view, leaving every cell outside it. -/
def Display.mapView (w h : Nat) (f : Nat → BitVec 128) (d : Display) : Display :=
  Display.ofRows fun r => if r < h then blendRow w (f r) (d.row r) else d.row r

/-- Scroll down by n rows, zeros entering at the top (42_display.md R222). -/
def Display.scrollDown (w h n : Nat) (d : Display) : Display :=
  d.mapView w h fun r => if n ≤ r then d.row (r - n) else 0

/-- Scroll right by 4 columns, zeros entering at the left (42_display.md R223). -/
def Display.scrollRight (w h : Nat) (d : Display) : Display :=
  d.mapView w h fun r => d.row r <<< 4

/-- Scroll left by 4 columns, zeros entering at the right (42_display.md R224). -/
def Display.scrollLeft (w h : Nat) (d : Display) : Display :=
  d.mapView w h fun r => (d.row r &&& columnMask w) >>> 4

/-- The first `n` columns of a sprite row placed at column x0 and clipped at w: sprite column c is bit cols-1-c of the row,
the leftmost pixel being the most significant bit (42_display.md R200, R203, R204). -/
def spriteMaskUpTo (bits : Word) (cols x0 w : Nat) : Nat → BitVec 128
  | 0 => 0
  | c + 1 => spriteMaskUpTo bits cols x0 w c |||
      (if bits.getLsbD (cols - 1 - c) && decide (x0 + c < w) then BitVec.twoPow 128 (x0 + c) else 0)

/-- The cells of a display row that a sprite row flips. -/
def spriteMask (bits : Word) (cols x0 w : Nat) : BitVec 128 := spriteMaskUpTo bits cols x0 w cols

/-- Where a sprite lands: its row bits, its form, its start cell and the display's size. -/
structure Blit where
  /-- The rows' bits, row 0 first. -/
  bits : List Word
  cols : Nat
  x0 : Nat
  y0 : Nat
  w : Nat
  h : Nat
  deriving DecidableEq, Repr

/-- The cells of display row y that the sprite flips; none outside its rows or below the bottom edge (42_display.md R204). -/
def Blit.mask (b : Blit) (y : Nat) : BitVec 128 :=
  if b.y0 ≤ y ∧ y < b.y0 + b.bits.length ∧ y < b.h then spriteMask (b.bits.getD (y - b.y0) 0) b.cols b.x0 b.w else 0

/-- The XOR-blit (42_display.md R201). -/
def Blit.apply (b : Blit) (d : Display) : Display := Display.ofRows fun y => d.row y ^^^ b.mask y

/-- A collision in row y: a cell that was 1 and receives a sprite bit 1 (42_display.md R201). -/
def Blit.hitsRow (b : Blit) (d : Display) (y : Nat) : Bool := d.row y &&& b.mask y != 0

/-- How many sprite rows collided (42_display.md R205). -/
def Blit.hitRows (b : Blit) (d : Display) : Nat :=
  (List.range b.bits.length).countP fun r => b.hitsRow d (b.y0 + r)

/-- The blit Dxyn performs: start coordinates wrapped (42_display.md R200), form by R202, rows by R203. -/
def State.blit (s : State) (x y : Reg) (n : Nibble) : Blit :=
  let form := spriteForm s.profile n
  { bits := (List.range form.rows).map (s.spriteRow form.cols)
    cols := form.cols
    x0 := (s.getV x).toNat % planeWidth s.hires
    y0 := (s.getV y).toNat % planeHeight s.hires
    w := planeWidth s.hires
    h := planeHeight s.hires }

end Sys2Proof.Machine
end

