-- ==== Sys2Proof/Machine/DisplayOps.lean ====
section
/-! DEFINITION. The display instructions (42_display.md). Every one sets disp_changed (10_state.md R28). -/

namespace Sys2Proof.Machine

/-- A blit's effect on the state: the display (42_display.md R201), VF the collision value (R205), disp_changed set (R206). -/
def State.runBlit (s : State) (b : Blit) : State :=
  (s.setDisp (b.apply s.disp)).setV VF (collisionFlag s.hires (b.hitRows s.disp) b.y0 b.bits.length b.h)

/-- Sprite draw, the transition of 42_display.md R200. -/
def State.draw (s : State) (x y : Reg) (n : Nibble) : State := s.runBlit (s.blit x y n)

/-- Dxyn DRW Vx, Vy, n (42_display.md R200). -/
def execDrw (x y : Reg) (n : Nibble) (s : State) : Result := .next (s.draw x y n)

/-- Dxy0 DRW Vx, Vy, 0 (42_display.md R202): 16x16 under SCHIP, zero rows under CHIP8. -/
def execDrwBig (x y : Reg) (s : State) : Result := .next (s.draw x y 0)

/-- 00E0 CLS (42_display.md R220). -/
def execCls (s : State) : Result := .next (s.setDisp Display.blank)

/-- 00FE LOW (42_display.md R221). -/
def execLow (s : State) : Result := .next ((s.setHires false).setDisp Display.blank)

/-- 00FF HIGH (42_display.md R221): under CHIP8 it is unrecognized, so a no-op with a diagnostic (30_encoding.md R90);
the decoder never gives it there, log 6. -/
def execHigh (s : State) : Result :=
  match s.profile with
  | .schip => .next ((s.setHires true).setDisp Display.blank)
  | .chip8 => .next (s.report (.unrecognizedOpcode s.ipc (encode .high)))

/-- 00Cn SCD n (42_display.md R222). -/
def execScd (n : Nibble) (s : State) : Result :=
  .next (s.setDisp (s.disp.scrollDown (planeWidth s.hires) (planeHeight s.hires) n.toNat))

/-- 00FB SCR (42_display.md R223). -/
def execScr (s : State) : Result :=
  .next (s.setDisp (s.disp.scrollRight (planeWidth s.hires) (planeHeight s.hires)))

/-- 00FC SCL (42_display.md R224). -/
def execScl (s : State) : Result :=
  .next (s.setDisp (s.disp.scrollLeft (planeWidth s.hires) (planeHeight s.hires)))

end Sys2Proof.Machine
end

