-- ==== Sys2Proof/Machine/MemoryTimer.lean ====
section
/-! DEFINITION. Timers, key wait, I arithmetic, font addresses, BCD, block transfer, flags storage
(43_memory_timer_input.md). -/

namespace Sys2Proof.Machine

/-- Fx07 LD Vx, DT (43_memory_timer_input.md R240). -/
def execLdVxDT (x : Reg) (s : State) : Result := .next (s.setV x s.DT)

/-- Fx15 LD DT, Vx (43_memory_timer_input.md R241). -/
def execLdDTVx (x : Reg) (s : State) : Result := .next (s.setDT (s.getV x))

/-- Fx18 LD ST, Vx (43_memory_timer_input.md R242). -/
def execLdSTVx (x : Reg) (s : State) : Result := .next (s.setST (s.getV x))

/-- Fx0A LD Vx, K (43_memory_timer_input.md R243): the wait begins; KeyUp ends it (R244). -/
def execLdVxK (x : Reg) (s : State) : Result := .next ((s.setWaitReg x).setWaiting true)

/-- Fx1E ADD I, Vx (43_memory_timer_input.md R247): VF is written under SCHIP only. -/
def execAddI (x : Reg) (s : State) : Result :=
  let t := s.setI (s.I + zextByte (s.getV x))
  match s.profile with
  | .schip => .next (t.setV VF (indexFlag s.I (s.getV x)))
  | .chip8 => .next t

/-- Fx29 LD F, Vx (43_memory_timer_input.md R250). -/
def execLdF (x : Reg) (s : State) : Result := .next (s.setI (loresGlyph (lowNibble (s.getV x))))

/-- Fx30 LD HF, Vx (43_memory_timer_input.md R251). -/
def execLdHF (x : Reg) (s : State) : Result := .next (s.setI (hiresGlyph (lowNibble (s.getV x))))

/-- Fx33 LD B, Vx (43_memory_timer_input.md R253): three byte writes, in this order. -/
def execLdB (x : Reg) (s : State) : Result :=
  let v := s.getV x
  .next (((s.memWrite (s.indexPlus 0) (hundreds v)).memWrite (s.indexPlus 1) (tens v)).memWrite (s.indexPlus 2) (units v))

/-- Fx55 LD [I], Vx (43_memory_timer_input.md R256). -/
def execLdMemVx (x : Reg) (s : State) : Result :=
  .next ((s.storeRegs (regsUpTo x)).setI (s.indexAfterTransfer x))

/-- Fx65 LD Vx, [I] (43_memory_timer_input.md R257). -/
def execLdVxMem (x : Reg) (s : State) : Result :=
  .next ((s.loadRegs (regsUpTo x)).setI (s.indexAfterTransfer x))

/-- Fx75 LD R, Vx (43_memory_timer_input.md R262). -/
def execLdRVx (x : Reg) (s : State) : Result := .next (s.saveFlags (regsUpTo (flagsLimit x)))

/-- Fx85 LD Vx, R (43_memory_timer_input.md R263). -/
def execLdVxR (x : Reg) (s : State) : Result := .next (s.restoreFlags (regsUpTo (flagsLimit x)))

end Sys2Proof.Machine
end

