-- ==== Sys2Proof/Machine/Fetch.lean ====
section
/-! DEFINITION. What the Step Driver does around the executor: fetch, and the effect of an unrecognized word
(30_encoding.md R84, R85, R90); and placing a word where the next fetch reads it. -/

namespace Sys2Proof.Machine

/-- Fetch: the word at pc (30_encoding.md R84). -/
def State.fetch (s : State) : Word := s.memRead2 s.pc

/-- An unrecognized word, after pc was advanced: one diagnostic and nothing else (30_encoding.md R90). -/
def State.unrecognizedWord (s : State) (w : Word) : State := s.report (.unrecognizedOpcode s.ipc w)

/-- Step is a no-op while waiting or halted (30_encoding.md R86). -/
def State.suspended (s : State) : Bool := s.waiting || s.halted

/-- The bytes of `w` stored where the next fetch reads. -/
def State.placeWord (s : State) (w : Word) : State :=
  (s.memWrite s.pc (hiByte w)).memWrite (s.pc + 1) (loByte w)

/-- Running: neither waiting nor halted, so that the next Step fetches. -/
def State.resume (s : State) : State := (s.setWaiting false).setHalted false

end Sys2Proof.Machine
end

