-- ==== Sys2Proof/Machine/Step.lean ====
section
/-! DEFINITION. The Step command, the whole transition of 30_encoding.md R86. -/

namespace Sys2Proof.Machine

/-- Step (30_encoding.md R86): a no-op while waiting or halted; else fetch, advance pc, decode, execute. -/
def step (s : State) : Host.Outcome State Fault Refusal :=
  if s.suspended then .next s
  else
    match decode s.profile s.fetch with
    | .instr i => exec i s.advancePc
    | .unrecognized _ => .next (s.advancePc.unrecognizedWord s.fetch)

/-- The state whose next step fetches and runs the opcode-table word `w`: its two bytes at pc, and the core running.
It stands for a program loaded from outside (LoadRom, 70_reset_and_hazards.md R322); log 9. -/
def State.withFetchWord (s : State) (nbits w : Nat) : State := (s.placeWord (tableWord nbits w)).resume

end Sys2Proof.Machine
end

