-- ==== Sys2Proof/Machine/Commands.lean ====
section
/-! DEFINITION. The host's commands and the outputs it reads (60_exceptions.md R290 to R298; 70_reset_and_hazards.md
R320, R322). Each command is one atomic transition; they are applied one at a time in issue order (R294). -/

namespace Sys2Proof.Machine

/-- A timer after one Tick (60_exceptions.md R291). -/
def tickTimer (t : Byte) : Byte := if t = 0 then 0 else t - 1

/-- Tick: both timers, whatever waiting and halted are (60_exceptions.md R291). -/
def State.tick (s : State) : State := (s.setDT (tickTimer s.DT)).setST (tickTimer s.ST)

/-- KeyDown(k) (60_exceptions.md R292). -/
def State.keyDown (s : State) (k : Reg) : State := s.setKey k true

/-- KeyUp(k): the key is released, and a wait ends with its value in V[wait_reg] (60_exceptions.md R293). -/
def State.keyUp (s : State) (k : Reg) : State :=
  let t := s.setKey k false
  if s.waiting then (t.setV s.waitReg (keyByte k)).setWaiting false else t

/-- AckDisplay (60_exceptions.md R295). -/
def State.ackDisplay (s : State) : State := s.setDispChanged false

/-- Where a ROM image starts (00_scope.md R9). -/
def romOrigin : Nat := 0x200
/-- The longest image that loads: 4096 - 0x200 bytes (70_reset_and_hazards.md R322). -/
def romCapacity : Nat := 4096 - romOrigin

/-- Bytes written from an address on, in order. -/
def Memory.writeFrom (m : Memory) (a : Nat) : List Byte → Memory
  | [] => m
  | b :: bs => Memory.writeFrom (m.write a b) (a + 1) bs

/-- Whether LoadRom answers OK (70_reset_and_hazards.md R322). -/
def loadSucceeds (image : List Byte) : Bool := decide (image.length ≤ romCapacity)

/-- LoadRom(image): the image from 0x200, or a diagnostic and memory unchanged (70_reset_and_hazards.md R322; log 11). -/
def State.loadRom (s : State) (image : List Byte) : State :=
  if loadSucceeds image then { s with mem := s.mem.writeFrom romOrigin image }
  else s.report (.loadTooLarge image.length)

/-- Reset(profile) (70_reset_and_hazards.md R320). The model's draw counter goes on, so that draws stay fresh across a
reset; log 2. -/
def State.resetCommand (s : State) (p : Profile) : State := { State.resetTo p with draws := s.draws }

/-- Reset with other font bytes, the parameters LORES_FONT and HIRES_FONT as arguments (00_scope.md R8; log 4). -/
def State.resetWithFonts (lores hires : List Byte) (p : Profile) : State :=
  { State.resetTo p with mem := (Memory.writeFrom [] loresBase lores).writeFrom hiresBase hires }

/-- A command of the host (60_exceptions.md R290). A key argument is a hexadecimal digit (R297). -/
inductive Command where
  | reset (p : Profile)
  | loadRom (image : List Byte)
  | step
  | tick
  | keyDown (k : Reg)
  | keyUp (k : Reg)
  | ackDisplay
  deriving DecidableEq, Repr

/-- One command, one atomic transition (60_exceptions.md R290, R294). -/
def command (c : Command) (s : State) : Result :=
  match c with
  | .reset p => .next (s.resetCommand p)
  | .loadRom image => .next (s.loadRom image)
  | .step => Sys2Proof.Machine.step s
  | .tick => .next s.tick
  | .keyDown k => .next (s.keyDown k)
  | .keyUp k => .next (s.keyUp k)
  | .ackDisplay => .next s.ackDisplay

/-- Commands in issue order (60_exceptions.md R294). -/
def commands : List Command → State → Result
  | [], s => .next s
  | c :: cs, s =>
    match command c s with
    | .next t => commands cs t
    | .fault r => .fault r
    | .refused r => .refused r

/-- The display view the host reads: a cell of the W x H display, nothing outside it (60_exceptions.md R296). -/
def State.view (s : State) (c r : Nat) : Option Bool :=
  if c < planeWidth s.hires ∧ r < planeHeight s.hires then some (s.disp.cell c r) else none

end Sys2Proof.Machine
end

