-- ==== Sys2Proof/Safety.lean ====
section
/-! DEFINITION. What counts as a legal state and a legal use of the machine, in the terms claims use: the invariants of
10_state.md R38, and the order of commands the host owes (60_exceptions.md R298; 70_reset_and_hazards.md R323). -/

namespace Sys2Proof.Machine

/-- The invariants of 10_state.md R38, and the canonical form of memory, which says that every listed address is in
0x000 to 0xFFF. `0 ≤ sp ≤ 16` holds of every state by the type of sp. -/
structure State.Inv (s : State) : Prop where
  /-- Memory is in canonical form. -/
  memory : s.mem.wf = true
  /-- hires = 0 when PROFILE = CHIP8. -/
  profile : s.profile = .chip8 → s.hires = false
  /-- At most one of waiting and halted is 1. -/
  suspension : ¬ (s.waiting = true ∧ s.halted = true)
  /-- In low resolution the cells outside the 64 x 32 view are 0. -/
  offView : s.hires = false → ∀ c r, 64 ≤ c ∨ 32 ≤ r → s.disp.cell c r = false

/-- Where a host stands in its order of commands (60_exceptions.md R298). -/
inductive HostPhase where
  /-- Before Reset: no other command. -/
  | powerUp
  /-- After Reset, no image loaded and no Step yet: LoadRom is allowed. -/
  | fresh
  /-- After LoadRom or the first Step. -/
  | running
  deriving DecidableEq, Repr

/-- The phase after a command, if the host may issue it (60_exceptions.md R298; 70_reset_and_hazards.md R323). -/
def HostPhase.after : HostPhase → Command → Option HostPhase
  | _, .reset _ => some .fresh
  | .powerUp, _ => none
  | .fresh, .loadRom _ => some .running
  | .running, .loadRom _ => none
  | _, .step => some .running
  | ph, _ => some ph

/-- The host issues these commands in a legal order from this phase. -/
def legalOrder : HostPhase → List Command → Bool
  | _, [] => true
  | ph, c :: cs =>
    match ph.after c with
    | some ph' => legalOrder ph' cs
    | none => false

/-- One piece of the state, as the spec names it (10_state.md R20 to R34), memory and the display one cell at a time. -/
inductive Part where
  | profile
  | memByte (a : Nat)
  | reg (i : Reg)
  | index
  | pc
  | stack (j : Fin 16)
  | sp
  | cell (c r : Nat)
  | hires
  | dispChanged
  | DT
  | ST
  | key (k : Reg)
  | flag (j : Reg)
  | waiting
  | waitReg
  | halted
  | diag
  | draws
  deriving DecidableEq, Repr

/-- Two states agree on a part; memory is compared through the read of one byte. -/
def Part.same (s t : State) : Part → Prop
  | .profile => t.profile = s.profile
  | .memByte a => t.mem.read a = s.mem.read a
  | .reg i => t.getV i = s.getV i
  | .index => t.I = s.I
  | .pc => t.pc = s.pc
  | .stack j => t.getStack j = s.getStack j
  | .sp => t.sp = s.sp
  | .cell c r => t.disp.cell c r = s.disp.cell c r
  | .hires => t.hires = s.hires
  | .dispChanged => t.dispChanged = s.dispChanged
  | .DT => t.DT = s.DT
  | .ST => t.ST = s.ST
  | .key k => t.getKey k = s.getKey k
  | .flag j => t.getFlag j = s.getFlag j
  | .waiting => t.waiting = s.waiting
  | .waitReg => t.waitReg = s.waitReg
  | .halted => t.halted = s.halted
  | .diag => t.diag = s.diag
  | .draws => t.draws = s.draws

/-- The frame: from s to t every part of the state is unchanged but those that `may` names. -/
def changesOnly (may : Part → Prop) (s t : State) : Prop := ∀ p, ¬ may p → p.same s t

end Sys2Proof.Machine
end

