-- ==== Sys2Proof/Certificates/Slice0/Obligations.lean ====
section
/-! DEFINITION. The statements for the provers, each from rules of spec/, and the vocabulary they share. An instruction's
statement is about `exec` on the state whose pc was already advanced (00_scope.md R13); the Step statements tie it
to a run. -/

namespace Sys2Proof.Claims

open Sys2Proof Sys2Proof.Machine

/-- A register number in its place in an instruction word: `x << k`. -/
def regAt (x : Reg) (k : Nat) : Word := BitVec.ofNat 16 x.val <<< k

/-- The word of an encoding as its rule writes it is the instruction's, to the encoder and to the decoder. -/
def encodedAs (w : Word) (i : Instr) : Prop := encode i = w ∧ ∀ p, decode p w = .instr i

/-- The word at pc, each byte's address reduced mod 4096 (30_encoding.md R84; 20_memory.md R63). -/
def wordAtPc (s : State) : Word :=
  wordOfBytes (s.mem.read (s.pc.toNat % 4096)) (s.mem.read ((s.pc + 1).toNat % 4096))

/-- The instruction completes with `result` in V[x] and then `flag` in VF, so that VF holds the flag also when x = 15
(41_arithmetic.md R160), and changes nothing else. -/
def writesResultThenFlag (i : Instr) (x : Reg) (result flag : Byte) (s : State) : Prop :=
  ∃ t, exec i s = .next t ∧ t.getV VF = flag ∧ (x ≠ VF → t.getV x = result) ∧
    changesOnly (fun p => p = .reg x ∨ p = .reg VF) s t

/-- The cells of the current view (00_scope.md R12). -/
def viewCell (s : State) (p : Part) : Prop :=
  ∃ c r, c < planeWidth s.hires ∧ r < planeHeight s.hires ∧ p = .cell c r

/-- Any cell of the plane. -/
def anyCell (p : Part) : Prop := ∃ c r, p = .cell c r

/-- The instruction of the word Dxyn: the Dxy0 row for n = 0, else the Dxyn row. -/
def drawInstr (x y : Reg) (n : Nibble) : Instr := if n = 0 then .drwBig x y else .drw x y n

/-- The start column, wrapped (42_display.md R204). -/
def startCol (s : State) (x : Reg) : Nat := (s.getV x).toNat % planeWidth s.hires
/-- The start row, wrapped (42_display.md R204). -/
def startRow (s : State) (y : Reg) : Nat := (s.getV y).toNat % planeHeight s.hires

/-- Rows of the sprite (42_display.md R202). -/
def formRows (p : Profile) (n : Nibble) : Nat :=
  if n.toNat > 0 then n.toNat else match p with
    | .schip => 16
    | .chip8 => 0
/-- Columns of the sprite (42_display.md R202). -/
def formCols (p : Profile) (n : Nibble) : Nat :=
  if n.toNat > 0 then 8 else match p with
    | .schip => 16
    | .chip8 => 8

/-- The byte at I + k, the address reduced mod 4096 (20_memory.md R62). -/
def byteFromI (s : State) (k : Nat) : Byte := s.mem.read ((s.I.toNat + k) % 4096)

/-- Row r of the sprite: MemRead(I + r, 1), or MemRead(I + 2r, 2) for 16 columns (42_display.md R203). -/
def rowBits (s : State) (n : Nibble) (r : Nat) : Word :=
  if formCols s.profile n = 16 then wordOfBytes (byteFromI s (2 * r)) (byteFromI s (2 * r + 1))
  else (byteFromI s r).setWidth 16

/-- The display cell (c, r) receives a sprite bit 1: it lies in the sprite's rectangle, inside the display, and the sprite
bit there, the leftmost pixel being the most significant bit, is 1 (42_display.md R200, R204). -/
def spritePixel (s : State) (x y : Reg) (n : Nibble) (c r : Nat) : Bool :=
  decide (startCol s x ≤ c ∧ c < startCol s x + formCols s.profile n ∧ c < planeWidth s.hires ∧
    startRow s y ≤ r ∧ r < startRow s y + formRows s.profile n ∧ r < planeHeight s.hires) &&
  (rowBits s n (r - startRow s y)).getLsbD (formCols s.profile n - 1 - (c - startCol s x))

/-- Sprite row r collides: some display cell of it was 1 and receives a sprite bit 1 (42_display.md R201). -/
def rowCollides (s : State) (x y : Reg) (n : Nibble) (r : Nat) : Bool :=
  (List.range 128).any fun c =>
    s.disp.cell c (startRow s y + r) && spritePixel s x y n c (startRow s y + r)

/-- How many sprite rows collide (42_display.md R205). -/
def collidingRows (s : State) (x y : Reg) (n : Nibble) : Nat :=
  (List.range (formRows s.profile n)).countP (rowCollides s x y n)

/-! ### The loop of 42_display.md R200, written out -/

/-- `disp[c][r] <- disp[c][r] XOR 1`. -/
def flipCell (d : Display) (c r : Nat) : Display :=
  Display.ofRows fun y => if y = r then d.row y ^^^ BitVec.twoPow 128 c else d.row y

/-- The loop's variables: the display, `any` and `hitrows`. -/
structure LoopState where
  disp : Display
  any : Bool
  hitrows : Nat
  deriving DecidableEq, Repr

/-- The inner loop's body, for one column c: clipped, or the cell flipped and `hit` set if it was 1. -/
def columnBody (w cols x0 row : Nat) (bits : Word) (acc : Display × Bool) (c : Nat) : Display × Bool :=
  if x0 + c ≥ w then acc
  else if bits.getLsbD (cols - 1 - c) then
    (flipCell acc.1 (x0 + c) row, if acc.1.cell (x0 + c) row then true else acc.2)
  else acc

/-- The outer loop's body, for one row r: clipped, or the columns run and `any` and `hitrows` updated. -/
def rowBody (s : State) (x y : Reg) (n : Nibble) (acc : LoopState) (r : Nat) : LoopState :=
  if startRow s y + r ≥ planeHeight s.hires then acc
  else
    let inner := (List.range (formCols s.profile n)).foldl
      (columnBody (planeWidth s.hires) (formCols s.profile n) (startCol s x) (startRow s y + r) (rowBits s n r))
      (acc.disp, false)
    { disp := inner.1, any := acc.any || inner.2, hitrows := acc.hitrows + inner.2.toNat }

/-- The whole transition of 42_display.md R200. -/
def drawLoop (s : State) (x y : Reg) (n : Nibble) : State :=
  let l := (List.range (formRows s.profile n)).foldl (rowBody s x y n) { disp := s.disp, any := false, hitrows := 0 }
  let vf : Byte :=
    if s.hires then BitVec.ofNat 8 (l.hitrows + (startRow s y + formRows s.profile n - planeHeight s.hires))
    else if l.any then 1 else 0
  { s with disp := l.disp, dispChanged := true, V := s.V.set 15 vf }

/-- Which instructions may write a part of the state (10_state.md R22 to R34; 20_memory.md R66; 40_control_flow.md R131). The
registers each writes are its own statement's matter; pc here is pc beyond the fetch's advance. -/
def writes : Part → Instr → Bool
  | .memByte _, i => match i with
    | .ldB _ | .ldMemVx _ => true
    | _ => false
  | .stack _, i => match i with
    | .call _ => true
    | _ => false
  | .sp, i => match i with
    | .call _ | .ret => true
    | _ => false
  | .pc, i => match i with
    | .jp _ | .call _ | .ret | .jpOff _ | .seImm _ _ | .sneImm _ _ | .seReg _ _ | .sneReg _ _ | .skp _ | .sknp _ => true
    | _ => false
  | .index, i => match i with
    | .ldI _ | .addI _ | .ldF _ | .ldHF _ | .ldMemVx _ | .ldVxMem _ => true
    | _ => false
  | .cell _ _, i | .dispChanged, i => match i with
    | .drw _ _ _ | .drwBig _ _ | .cls | .scd _ | .scr | .scl | .low | .high => true
    | _ => false
  | .hires, i => match i with
    | .low | .high => true
    | _ => false
  | .DT, i => match i with
    | .ldDTVx _ => true
    | _ => false
  | .ST, i => match i with
    | .ldSTVx _ => true
    | _ => false
  | .flag j, i => match i with
    | .ldRVx _ => decide (j ≤ 7)
    | _ => false
  | .waiting, i | .waitReg, i => match i with
    | .ldVxK _ => true
    | _ => false
  | .halted, i => match i with
    | .exit => true
    | _ => false
  | .diag, i => match i with
    | .call _ | .ret | .high => true
    | _ => false
  | .draws, i => match i with
    | .rnd _ _ => true
    | _ => false
  | .profile, _ | .key _, _ => false
  | .reg j, i => match i with
    | .ldImm x _ | .addImm x _ | .ldReg x _ | .rnd x _ | .ldVxDT x => decide (j = x)
    | .orReg x _ | .andReg x _ | .xorReg x _ | .addReg x _ | .subReg x _ | .shr x _ | .subnReg x _ | .shl x _ =>
      decide (j = x ∨ j = VF)
    | .drw _ _ _ | .drwBig _ _ | .addI _ => decide (j = VF)
    | .ldVxMem x => decide (j ≤ x)
    | .ldVxR x => decide (j ≤ x ∧ j ≤ 7)
    | _ => false

/-- Two states that differ at most in stack entries not in use (10_state.md R25). -/
def sameLiveStack (s s' : State) : Prop :=
  s' = { s with stack := s'.stack } ∧ ∀ j : Fin 16, j.val < s.sp.val → s'.getStack j = s.getStack j

end Sys2Proof.Claims

open Sys2Proof Sys2Proof.Machine Sys2Proof.Claims

/-! ### Decoding -/

/-- Fifteen words written out from the encodings of 30_encoding.md R88, of ten of its sixteen families (0, 1, 3, 8, 9,
B to F), decode to their instructions, or are unrecognized. The rows for 00E0, 00Cn and 00FF are general knowledge by
the spec's own mark (log 17). -/
def Obligations.SpecWordsDecodeToTheirInstructions : Prop :=
  decode .chip8 0x00E0 = .instr .cls ∧ decode .chip8 0x00C3 = .instr (.scd 3) ∧ decode .schip 0x00FF = .instr .high ∧
  decode .chip8 0x1ABC = .instr (.jp 0xABC) ∧ decode .chip8 0x3005 = .instr (.seImm 0 0x05) ∧
  decode .chip8 0x912F = .instr (.sneReg 1 2) ∧ decode .chip8 0x8126 = .instr (.shr 1 2) ∧
  decode .schip 0xB300 = .instr (.jpOff 0x300) ∧ decode .chip8 0xC30F = .instr (.rnd 3 0x0F) ∧
  decode .chip8 0xD015 = .instr (.drw 0 1 5) ∧ decode .schip 0xD010 = .instr (.drwBig 0 1) ∧
  decode .chip8 0xE39E = .instr (.skp 3) ∧ decode .chip8 0xF155 = .instr (.ldMemVx 1) ∧
  decode .chip8 0x8128 = .unrecognized .aluFamily ∧ decode .chip8 0x0123 = .unrecognized .zeroFamily

/-- Decoding the word of a well-formed instruction gives the instruction, with every operand (30_encoding.md sections 1, 3). -/
def Obligations.DecodingAnEncodedInstructionGivesItBack : Prop :=
  ∀ (p : Profile) (i : Instr), i.wellFormed p = true → decode p (encode i) = .instr i

/-- Encoding a decoded word gives the word, but for the ignored nibble of 5xyn and 9xyn, which comes back 0
(30_encoding.md sections 1, 3). That the nibble is ignored is the spec's decision D6 (log 14); that it comes back 0 is
the model's choice, the encoder writing n as 0 (log 16). -/
def Obligations.EncodingADecodedWordGivesItBack : Prop :=
  ∀ (p : Profile) (w : Word) (i : Instr), decode p w = .instr i →
    i.wellFormed p = true ∧ encode i = (if opField w = 0x5 ∨ opField w = 0x9 then w &&& 0xFFF0 else w)

/-- The unrecognized words are those 30_encoding.md section 3 lists, and no other. The list is the spec's own
inference (R91) over its decisions D6 to D8 (log 14). -/
def Obligations.UnrecognizedWordsAreTheListedOnes : Prop :=
  ∀ (p : Profile) (w : Word),
    (∃ why, decode p w = .unrecognized why) ↔
      ((w.toNat / 4096 = 0x0 ∧ ¬ (0x00C0 ≤ w.toNat ∧ w.toNat ≤ 0x00CF) ∧
          w.toNat ∉ [0x00E0, 0x00EE, 0x00FB, 0x00FC, 0x00FD, 0x00FE, 0x00FF]) ∨
        (w.toNat = 0x00FF ∧ p = .chip8) ∨
        (w.toNat / 4096 = 0x8 ∧ w.toNat % 16 ∈ [0x8, 0x9, 0xA, 0xB, 0xC, 0xD, 0xF]) ∨
        (w.toNat / 4096 = 0xE ∧ w.toNat % 256 ∉ [0x9E, 0xA1]) ∨
        (w.toNat / 4096 = 0xF ∧
          w.toNat % 256 ∉ [0x07, 0x0A, 0x15, 0x18, 0x1E, 0x29, 0x30, 0x33, 0x55, 0x65, 0x75, 0x85]))

/-- 5xyn runs as 5xy0 and 9xyn as 9xy0 for every n, and n only selects the form of Dxyn (30_encoding.md R89). It is
the spec's decision D6 (log 14). -/
def Obligations.LowNibbleIsNotDecodedInFamilies5And9AndD : Prop :=
  ∀ (p : Profile) (x y : Reg) (n : Nibble),
    decode p (0x5000 ||| regAt x 8 ||| regAt y 4 ||| n.setWidth 16) = .instr (.seReg x y) ∧
    decode p (0x9000 ||| regAt x 8 ||| regAt y 4 ||| n.setWidth 16) = .instr (.sneReg x y) ∧
    decode p (0xD000 ||| regAt x 8 ||| regAt y 4 ||| n.setWidth 16) = .instr (drawInstr x y n) ∧
    ∀ s : State, exec (drawInstr x y n) s = .next (s.draw x y n)

/-- The profile decides whether 0x00FF is recognized, and nothing else in decoding (60_exceptions.md section 3). It is
the spec's decision D8 (log 14). -/
def Obligations.OnlyHighDependsOnTheProfile : Prop :=
  (∀ w : Word, w ≠ 0x00FF → decode .chip8 w = decode .schip w) ∧
  decode .schip 0x00FF = .instr .high ∧ ∃ why, decode .chip8 0x00FF = .unrecognized why

/-! ### The Step Driver -/

/-- A step runs the decoded instruction on the state whose pc was advanced by 2 (30_encoding.md R84 to R86). The
halted test and the 16-bit wrap of pc are the spec's decisions D19, D2 (log 14). -/
def Obligations.StepRunsTheDecodedInstruction : Prop :=
  ∀ (s : State) (i : Instr), s.waiting = false → s.halted = false → decode s.profile (wordAtPc s) = .instr i →
    step s = exec i { s with pc := s.pc + 2 }

/-- An unrecognized word advances pc, raises one diagnostic, and has no other effect (30_encoding.md R90). -/
def Obligations.UnrecognizedWordIsAReportedNoOp : Prop :=
  ∀ (s : State) (why : Unrecognized), s.waiting = false → s.halted = false →
    decode s.profile (wordAtPc s) = .unrecognized why →
    step s = .next { s with pc := s.pc + 2, diag := s.diag ++ [.unrecognizedOpcode s.pc (wordAtPc s)] }

/-- While waiting or halted a step changes nothing (30_encoding.md section 2). The halted half is the spec's decision
D19 (log 14). -/
def Obligations.StepIsANoOpWhileWaitingOrHalted : Prop :=
  ∀ s : State, s.waiting = true ∨ s.halted = true → step s = .next s

/-- Step answers a next state whatever the bytes at pc and whatever the state (30_encoding.md section 2;
60_exceptions.md section 1). -/
def Obligations.StepNeverStops : Prop :=
  ∀ s : State, ∃ t, step s = .next t

/-- One Step raises at most one diagnostic, and each only for its own cause (60_exceptions.md section 1). R285 is
marked as the spec's own inference; the record's form is its decision D18 (log 14). -/
def Obligations.StepRaisesAtMostOneDiagnostic : Prop :=
  ∀ s t : State, step s = .next t →
    t.diag = s.diag ∨
    (t.diag = s.diag ++ [.unrecognizedOpcode s.pc (wordAtPc s)] ∧
      ∃ why, decode s.profile (wordAtPc s) = .unrecognized why) ∨
    (t.diag = s.diag ++ [.stackOverflow s.pc (wordAtPc s)] ∧ s.sp.val = 16 ∧
      ∃ nnn, decode s.profile (wordAtPc s) = .instr (.call nnn)) ∨
    (t.diag = s.diag ++ [.stackUnderflow s.pc (wordAtPc s)] ∧ s.sp.val = 0 ∧
      decode s.profile (wordAtPc s) = .instr .ret)

/-! ### Control flow -/

/-- JP nnn (40_control_flow.md R120). -/
def Obligations.JumpSetsPcToTheAddress : Prop :=
  ∀ (nnn : Addr) (s : State), encodedAs (0x1000 ||| nnn.setWidth 16) (.jp nnn) ∧
    ∃ t, exec (.jp nnn) s = .next t ∧ t.pc = nnn.setWidth 16 ∧ changesOnly (fun p => p = .pc) s t

/-- CALL nnn (40_control_flow.md R121), fetched at `ipc`. That the jump is suppressed with the push is the spec's
decision D15 (log 14). -/
def Obligations.CallPushesTheReturnAddressOrIsSuppressed : Prop :=
  ∀ (nnn : Addr) (ipc : Word) (s : State), s.pc = ipc + 2 →
    encodedAs (0x2000 ||| nnn.setWidth 16) (.call nnn) ∧
    ∃ t, exec (.call nnn) s = .next t ∧
      (s.sp.val = 16 →
        t.diag = s.diag ++ [.stackOverflow ipc (0x2000 ||| nnn.setWidth 16)] ∧ changesOnly (fun p => p = .diag) s t) ∧
      (s.sp.val < 16 →
        (∀ j : Fin 16, j.val = s.sp.val → t.getStack j = s.pc) ∧ t.sp.val = s.sp.val + 1 ∧ t.pc = nnn.setWidth 16 ∧
        changesOnly (fun p => (∃ j : Fin 16, j.val = s.sp.val ∧ p = .stack j) ∨ p = .sp ∨ p = .pc) s t)

/-- RET (40_control_flow.md R122), fetched at `ipc`; the popped entry keeps its value. The form of the no-op and the
kept entry are the spec's decisions D15, D16 (log 14). -/
def Obligations.ReturnPopsTheReturnAddressOrIsANoOp : Prop :=
  ∀ (ipc : Word) (s : State), s.pc = ipc + 2 →
    encodedAs 0x00EE .ret ∧
    ∃ t, exec .ret s = .next t ∧
      (s.sp.val = 0 →
        t.diag = s.diag ++ [.stackUnderflow ipc 0x00EE] ∧ changesOnly (fun p => p = .diag) s t) ∧
      (0 < s.sp.val →
        t.sp.val = s.sp.val - 1 ∧ (∀ j : Fin 16, j.val = s.sp.val - 1 → t.pc = s.getStack j) ∧
        changesOnly (fun p => p = .sp ∨ p = .pc) s t)

/-- A CALL that is not suppressed and a RET after it come back to the pc and sp before the CALL (40_control_flow.md section 1). -/
def Obligations.ReturnUndoesCall : Prop :=
  ∀ (nnn : Addr) (s t : State), s.sp.val < 16 → exec (.call nnn) s = .next t →
    ∃ u, exec .ret t = .next u ∧ u.pc = s.pc ∧ u.sp = s.sp ∧
      changesOnly (fun p => ∃ j : Fin 16, j.val = s.sp.val ∧ p = .stack j) s u

/-- SE Vx, nn (40_control_flow.md R124). -/
def Obligations.SkipWhenARegisterEqualsAByte : Prop :=
  ∀ (x : Reg) (nn : Byte) (s : State),
    encodedAs (0x3000 ||| regAt x 8 ||| nn.setWidth 16) (.seImm x nn) ∧
    exec (.seImm x nn) s = .next { s with pc := if s.getV x = nn then s.pc + 2 else s.pc }

/-- SNE Vx, nn; SE and SNE Vx, Vy with any low nibble (40_control_flow.md R125, R126, R127). The conditions are general
knowledge by the spec's own mark (log 17), and the ignored nibble is its decision D6 (log 14). -/
def Obligations.SkipsOfTheOtherComparisons : Prop :=
  ∀ (x y : Reg) (nn : Byte) (n : Nibble) (p : Profile) (s : State),
    encodedAs (0x4000 ||| regAt x 8 ||| nn.setWidth 16) (.sneImm x nn) ∧
    exec (.sneImm x nn) s = .next { s with pc := if s.getV x = nn then s.pc else s.pc + 2 } ∧
    decode p (0x5000 ||| regAt x 8 ||| regAt y 4 ||| n.setWidth 16) = .instr (.seReg x y) ∧
    exec (.seReg x y) s = .next { s with pc := if s.getV x = s.getV y then s.pc + 2 else s.pc } ∧
    decode p (0x9000 ||| regAt x 8 ||| regAt y 4 ||| n.setWidth 16) = .instr (.sneReg x y) ∧
    exec (.sneReg x y) s = .next { s with pc := if s.getV x = s.getV y then s.pc else s.pc + 2 }

/-- SKP and SKNP Vx, on the key of V[x]'s low nibble (40_control_flow.md R128, R129). The conditions are general
knowledge by the spec's own mark (log 17); the low nibble is its decision D14 (log 14). -/
def Obligations.SkipsOnAKey : Prop :=
  ∀ (x k : Reg) (s : State), k.val = (s.getV x).toNat % 16 →
    encodedAs (0xE09E ||| regAt x 8) (.skp x) ∧
    exec (.skp x) s = .next { s with pc := if s.getKey k = true then s.pc + 2 else s.pc } ∧
    encodedAs (0xE0A1 ||| regAt x 8) (.sknp x) ∧
    exec (.sknp x) s = .next { s with pc := if s.getKey k = true then s.pc else s.pc + 2 }

/-- JP V0, nnn under CHIP8 and JP Vx, nnn under SCHIP (40_control_flow.md R130). That pc keeps 16 bits above 0x0FFF is
the spec's decision D2 (log 14). -/
def Obligations.ComputedJumpAddsTheProfilesRegister : Prop :=
  ∀ (nnn : Addr) (x : Reg) (s : State), x.val = nnn.toNat / 256 →
    encodedAs (0xB000 ||| nnn.setWidth 16) (.jpOff nnn) ∧
    ∃ t, exec (.jpOff nnn) s = .next t ∧
      (s.profile = .chip8 → t.pc.toNat = nnn.toNat + (s.getV 0).toNat) ∧
      (s.profile = .schip → t.pc.toNat = nnn.toNat + (s.getV x).toNat) ∧
      changesOnly (fun p => p = .pc) s t

/-- EXIT (40_control_flow.md R140): the core halts, every later Step is a no-op, only Reset ends it, and the host's
other commands still act. The instruction is general knowledge by the spec's own mark (log 17), its halted state the
decision D19 (log 14). -/
def Obligations.ExitHaltsUntilReset : Prop :=
  encodedAs 0x00FD .exit ∧
  (∀ s : State, ∃ t, exec .exit s = .next t ∧ t.halted = true ∧ changesOnly (fun p => p = .halted) s t) ∧
  ∀ t : State, t.halted = true →
    step t = .next t ∧
    (∀ (c : Command) (u : State), (∀ p, c ≠ .reset p) → command c t = .next u → u.halted = true) ∧
    command .tick t = .next { t with DT := (if t.DT = 0 then 0 else t.DT - 1), ST := (if t.ST = 0 then 0 else t.ST - 1) } ∧
    (∀ k : Reg, command (.keyDown k) t = .next { t with key := t.key.set k.val true k.isLt }) ∧
    (∀ k : Reg, ∃ u, command (.keyUp k) t = .next u ∧ u.getKey k = false) ∧
    command .ackDisplay t = .next { t with dispChanged := false }

/-! ### Arithmetic, logic, immediates, I load, random -/

/-- LD Vx, nn (41_arithmetic.md R161). -/
def Obligations.LoadImmediateSetsTheRegister : Prop :=
  ∀ (x : Reg) (nn : Byte) (s : State),
    encodedAs (0x6000 ||| regAt x 8 ||| nn.setWidth 16) (.ldImm x nn) ∧
    ∃ t, exec (.ldImm x nn) s = .next t ∧ t.getV x = nn ∧ changesOnly (fun p => p = .reg x) s t

/-- ADD Vx, nn, which leaves VF unless x = 15, and LD Vx, Vy (41_arithmetic.md R162, R163). That ADD sets no carry, and
LD Vx, Vy as a whole, are general knowledge by the spec's own mark (log 17). -/
def Obligations.ImmediateAddAndRegisterLoadWriteOneRegister : Prop :=
  ∀ (x y : Reg) (nn : Byte) (s : State),
    encodedAs (0x7000 ||| regAt x 8 ||| nn.setWidth 16) (.addImm x nn) ∧
    (∃ t, exec (.addImm x nn) s = .next t ∧ (t.getV x).toNat = ((s.getV x).toNat + nn.toNat) % 256 ∧
      changesOnly (fun p => p = .reg x) s t) ∧
    encodedAs (0x8000 ||| regAt x 8 ||| regAt y 4) (.ldReg x y) ∧
    (∃ t, exec (.ldReg x y) s = .next t ∧ t.getV x = s.getV y ∧ changesOnly (fun p => p = .reg x) s t)

/-- OR, AND and XOR give the bitwise result and clear VF, under both profiles (41_arithmetic.md R164, R165, R166). The
results are general knowledge by the spec's own mark (log 17); LOGIC_VF_RESET is true by its decision D5 (log 15). -/
def Obligations.LogicOperationsClearVF : Prop :=
  ∀ (x y : Reg) (s : State),
    encodedAs (0x8001 ||| regAt x 8 ||| regAt y 4) (.orReg x y) ∧
    writesResultThenFlag (.orReg x y) x (s.getV x ||| s.getV y) 0 s ∧
    encodedAs (0x8002 ||| regAt x 8 ||| regAt y 4) (.andReg x y) ∧
    writesResultThenFlag (.andReg x y) x (s.getV x &&& s.getV y) 0 s ∧
    encodedAs (0x8003 ||| regAt x 8 ||| regAt y 4) (.xorReg x y) ∧
    writesResultThenFlag (.xorReg x y) x (s.getV x ^^^ s.getV y) 0 s

/-- ADD Vx, Vy: the low 8 bits of the sum, and VF the carry past 255 (41_arithmetic.md R168). That the flag is written
last is the spec's decision D4 (log 14). -/
def Obligations.AddSetsTheCarry : Prop :=
  ∀ (x y : Reg) (s : State),
    encodedAs (0x8004 ||| regAt x 8 ||| regAt y 4) (.addReg x y) ∧
    writesResultThenFlag (.addReg x y) x (BitVec.ofNat 8 ((s.getV x).toNat + (s.getV y).toNat))
      (if (s.getV x).toNat + (s.getV y).toNat > 255 then 1 else 0) s

/-- SUB and SUBN: the wrapped difference, and VF 1 when there is no borrow (41_arithmetic.md R169, R170). The results
are general knowledge by the spec's own mark (log 17); flag last by its decision D4 (log 14). -/
def Obligations.SubtractionsSetNoBorrow : Prop :=
  ∀ (x y : Reg) (s : State),
    encodedAs (0x8005 ||| regAt x 8 ||| regAt y 4) (.subReg x y) ∧
    writesResultThenFlag (.subReg x y) x (BitVec.ofNat 8 ((s.getV x).toNat + 256 - (s.getV y).toNat))
      (if (s.getV x).toNat ≥ (s.getV y).toNat then 1 else 0) s ∧
    encodedAs (0x8007 ||| regAt x 8 ||| regAt y 4) (.subnReg x y) ∧
    writesResultThenFlag (.subnReg x y) x (BitVec.ofNat 8 ((s.getV y).toNat + 256 - (s.getV x).toNat))
      (if (s.getV y).toNat ≥ (s.getV x).toNat then 1 else 0) s

/-- SHR and SHL shift V[x] under SCHIP and V[y] under CHIP8 by one bit, a zero entering, and put the bit shifted out
in VF (41_arithmetic.md R171, R172, R173). That the flag is written last and the shift is logical is the spec's
decision D4 (log 14). -/
def Obligations.ShiftsUseTheProfilesSource : Prop :=
  ∀ (x y : Reg) (s : State) (src : Byte),
    (s.profile = .schip → src = s.getV x) → (s.profile = .chip8 → src = s.getV y) →
    encodedAs (0x8006 ||| regAt x 8 ||| regAt y 4) (.shr x y) ∧
    writesResultThenFlag (.shr x y) x (BitVec.ofNat 8 (src.toNat / 2)) (BitVec.ofNat 8 (src.toNat % 2)) s ∧
    encodedAs (0x800E ||| regAt x 8 ||| regAt y 4) (.shl x y) ∧
    writesResultThenFlag (.shl x y) x (BitVec.ofNat 8 (src.toNat * 2)) (BitVec.ofNat 8 (src.toNat / 128)) s

/-- LD I, nnn (41_arithmetic.md R175). -/
def Obligations.LoadIndexSetsI : Prop :=
  ∀ (nnn : Addr) (s : State), encodedAs (0xA000 ||| nnn.setWidth 16) (.ldI nnn) ∧
    ∃ t, exec (.ldI nnn) s = .next t ∧ t.I = nnn.setWidth 16 ∧ changesOnly (fun p => p = .index) s t

/-- RND Vx, nn (41_arithmetic.md section 4): a draw masked by nn, and the next draw is another. The draw is a free value,
`Config.randomByte` of the model's own counter, which log 2 declares: nothing is assumed about it. -/
def Obligations.RandomIsAMaskedFreshDraw : Prop :=
  ∀ (x : Reg) (nn : Byte) (s : State), encodedAs (0xC000 ||| regAt x 8 ||| nn.setWidth 16) (.rnd x nn) ∧
    ∃ t, exec (.rnd x nn) s = .next t ∧ t.getV x = Config.randomByte s.draws &&& nn ∧ t.draws = s.draws + 1 ∧
      changesOnly (fun p => p = .reg x ∨ p = .draws) s t

/-! ### Display -/

/-- CLS (42_display.md R220). The instruction is general knowledge by the spec's own mark (log 17; D7, log 14). -/
def Obligations.ClearScreenZeroesEveryCell : Prop :=
  ∀ s : State, encodedAs 0x00E0 .cls ∧
    ∃ t, exec .cls s = .next t ∧ (∀ c r, t.disp.cell c r = false) ∧ t.dispChanged = true ∧
      changesOnly (fun p => anyCell p ∨ p = .dispChanged) s t

/-- LOW under both profiles, HIGH under SCHIP only; both clear the display (42_display.md R221). The instructions are
general knowledge by the spec's own mark (log 17; D8, D9, log 14). -/
def Obligations.ResolutionSwitchesClearTheDisplay : Prop :=
  ∀ s : State,
    encodedAs 0x00FE .low ∧
    (∃ t, exec .low s = .next t ∧ t.hires = false ∧ (∀ c r, t.disp.cell c r = false) ∧ t.dispChanged = true ∧
      changesOnly (fun p => anyCell p ∨ p = .hires ∨ p = .dispChanged) s t) ∧
    encode .high = 0x00FF ∧ decode .schip 0x00FF = .instr .high ∧ (∃ why, decode .chip8 0x00FF = .unrecognized why) ∧
    (s.profile = .schip →
      ∃ t, exec .high s = .next t ∧ t.hires = true ∧ (∀ c r, t.disp.cell c r = false) ∧ t.dispChanged = true ∧
        changesOnly (fun p => anyCell p ∨ p = .hires ∨ p = .dispChanged) s t)

/-- SCD n scrolls the view down by n rows, zeros entering at the top (42_display.md R222). The instruction is general
knowledge by the spec's own mark (log 17; D8, D10, log 14). -/
def Obligations.ScrollDownMovesRows : Prop :=
  ∀ (n : Nibble) (s : State), encodedAs (0x00C0 ||| n.setWidth 16) (.scd n) ∧
    ∃ t, exec (.scd n) s = .next t ∧ t.dispChanged = true ∧
      (∀ c r, c < planeWidth s.hires → r < planeHeight s.hires →
        t.disp.cell c r = if n.toNat ≤ r then s.disp.cell c (r - n.toNat) else false) ∧
      changesOnly (fun p => viewCell s p ∨ p = .dispChanged) s t

/-- SCR and SCL scroll the view by 4 columns, zeros entering (42_display.md R223, R224). The instructions are general
knowledge by the spec's own mark (log 17; D8, D10, log 14). -/
def Obligations.SidewaysScrollsMoveColumns : Prop :=
  ∀ s : State,
    encodedAs 0x00FB .scr ∧
    (∃ t, exec .scr s = .next t ∧ t.dispChanged = true ∧
      (∀ c r, c < planeWidth s.hires → r < planeHeight s.hires →
        t.disp.cell c r = if 4 ≤ c then s.disp.cell (c - 4) r else false) ∧
      changesOnly (fun p => viewCell s p ∨ p = .dispChanged) s t) ∧
    encodedAs 0x00FC .scl ∧
    (∃ t, exec .scl s = .next t ∧ t.dispChanged = true ∧
      (∀ c r, c < planeWidth s.hires → r < planeHeight s.hires →
        t.disp.cell c r = if c + 4 < planeWidth s.hires then s.disp.cell (c + 4) r else false) ∧
      changesOnly (fun p => viewCell s p ∨ p = .dispChanged) s t)

/-- Both sprite draws flip exactly the cells that receive a sprite bit 1, clipped at the edges, and touch nothing else
but VF and disp_changed (42_display.md R201 to R204, R206, but for the collision value). The forms of Dxy0 and the bit
order are the spec's decisions D11 to D13 (log 14). -/
def Obligations.DrawFlipsExactlyTheSpritePixels : Prop :=
  ∀ (x y : Reg) (n : Nibble) (s : State),
    encodedAs (0xD000 ||| regAt x 8 ||| regAt y 4 ||| n.setWidth 16) (drawInstr x y n) ∧
    ∃ t, exec (drawInstr x y n) s = .next t ∧ t.dispChanged = true ∧
      (∀ c r, t.disp.cell c r = (s.disp.cell c r ^^ spritePixel s x y n c r)) ∧
      changesOnly (fun p => viewCell s p ∨ p = .reg VF ∨ p = .dispChanged) s t

/-- The collision value both sprite draws write to VF (42_display.md R205). The formula's reading and the forms of
Dxy0 are the spec's decisions D32, D11 (log 14). -/
def Obligations.DrawWritesTheCollisionValue : Prop :=
  ∀ (x y : Reg) (n : Nibble) (s : State),
    ∃ t, exec (drawInstr x y n) s = .next t ∧
      (s.hires = false →
        t.getV VF = if collidingRows s x y n > 0 then 1 else 0) ∧
      (s.hires = true →
        (t.getV VF).toNat = collidingRows s x y n + (startRow s y + formRows s.profile n - planeHeight s.hires))

/-- Both sprite draws are the loop of 42_display.md R200, with the forms of R202 and the rows of R203. The forms of
Dxy0, the bit order and the clipping are the spec's decisions D11 to D13 (log 14). -/
def Obligations.DrawIsTheLoopOfTheRule : Prop :=
  ∀ (x y : Reg) (n : Nibble) (s : State),
    encodedAs (0xD000 ||| regAt x 8 ||| regAt y 4 ||| n.setWidth 16) (drawInstr x y n) ∧
    exec (drawInstr x y n) s = .next (drawLoop s x y n)

/-- Drawing the same sprite twice at the same place restores the display (42_display.md section 1). -/
def Obligations.DrawingTwiceRestoresTheDisplay : Prop :=
  ∀ (x y : Reg) (n : Nibble) (s t u : State), x ≠ VF → y ≠ VF →
    exec (drawInstr x y n) s = .next t → exec (drawInstr x y n) t = .next u → u.disp = s.disp

/-- Who sets and who clears disp_changed (10_state.md R28). Who sets and clears it is the spec's decision D17 (log
14). -/
def Obligations.DisplayChangedIsSetByDisplayInstructionsOnly : Prop :=
  (∀ (i : Instr) (s t : State), writes .dispChanged i = true → i.availableUnder s.profile = true →
    exec i s = .next t → t.dispChanged = true) ∧
  (∀ (i : Instr) (s t : State), writes .dispChanged i = false → exec i s = .next t → t.dispChanged = s.dispChanged) ∧
  (∀ (c : Command) (s t : State), command c s = .next t → s.dispChanged = true → t.dispChanged = false →
    c = .ackDisplay ∨ ∃ p, c = .reset p) ∧
  (∀ s : State, ∃ t, command .ackDisplay s = .next t ∧ t.dispChanged = false) ∧
  ∀ (p : Profile) (s : State), ∃ t, command (.reset p) s = .next t ∧ t.dispChanged = false

/-! ### Timers, key wait, I arithmetic, fonts, BCD, block transfer, flags storage -/

/-- LD Vx, DT; LD DT, Vx; LD ST, Vx (43_memory_timer_input.md R240, R241, R242). The directions are general knowledge
by the spec's own mark (log 17). -/
def Obligations.TimerTransfers : Prop :=
  ∀ (x : Reg) (s : State),
    encodedAs (0xF007 ||| regAt x 8) (.ldVxDT x) ∧
    (∃ t, exec (.ldVxDT x) s = .next t ∧ t.getV x = s.DT ∧ changesOnly (fun p => p = .reg x) s t) ∧
    encodedAs (0xF015 ||| regAt x 8) (.ldDTVx x) ∧
    (∃ t, exec (.ldDTVx x) s = .next t ∧ t.DT = s.getV x ∧ changesOnly (fun p => p = .DT) s t) ∧
    encodedAs (0xF018 ||| regAt x 8) (.ldSTVx x) ∧
    (∃ t, exec (.ldSTVx x) s = .next t ∧ t.ST = s.getV x ∧ changesOnly (fun p => p = .ST) s t)

/-- LD Vx, K begins the wait and suspends execution until a key is released (43_memory_timer_input.md R243): neither Step
nor any command but KeyUp and Reset ends it. -/
def Obligations.KeyWaitSuspendsUntilAKeyRelease : Prop :=
  ∀ (x : Reg) (s : State), encodedAs (0xF00A ||| regAt x 8) (.ldVxK x) ∧
    ∃ t, exec (.ldVxK x) s = .next t ∧ t.waiting = true ∧ t.waitReg = x ∧
      changesOnly (fun p => p = .waiting ∨ p = .waitReg) s t ∧
      ∀ (c : Command) (u v : State), u.waiting = true → command c u = .next v →
        (c = .step → v = u) ∧ (v.waiting = false → (∃ k, c = .keyUp k) ∨ ∃ p, c = .reset p)

/-- KeyUp (60_exceptions.md R293). That any KeyUp ends a wait is the spec's decision D23 (log 14). -/
def Obligations.KeyUpReleasesTheKeyAndEndsAWait : Prop :=
  ∀ (k : Reg) (s : State), ∃ t, command (.keyUp k) s = .next t ∧ t.getKey k = false ∧
    (s.waiting = false → changesOnly (fun p => p = .key k) s t) ∧
    (s.waiting = true → (t.getV s.waitReg).toNat = k.val ∧ t.waiting = false ∧
      changesOnly (fun p => p = .key k ∨ p = .reg s.waitReg ∨ p = .waiting) s t)

/-- ADD I, Vx (43_memory_timer_input.md R247). I's 16 bits and the untruncated comparison are the spec's decisions D3,
D22 (log 14). -/
def Obligations.AddIndexSetsVFUnderSchipOnly : Prop :=
  ∀ (x : Reg) (s : State), encodedAs (0xF01E ||| regAt x 8) (.addI x) ∧
    ∃ t, exec (.addI x) s = .next t ∧ t.I.toNat = (s.I.toNat + (s.getV x).toNat) % 65536 ∧
      (s.profile = .chip8 → changesOnly (fun p => p = .index) s t) ∧
      (s.profile = .schip →
        t.getV VF = (if s.I.toNat + (s.getV x).toNat > 0x0FFF then 1 else 0) ∧
        changesOnly (fun p => p = .index ∨ p = .reg VF) s t)

/-- LD F, Vx (43_memory_timer_input.md R250). -/
def Obligations.LowResolutionGlyphAddress : Prop :=
  ∀ (x : Reg) (s : State), encodedAs (0xF029 ||| regAt x 8) (.ldF x) ∧
    ∃ t, exec (.ldF x) s = .next t ∧ t.I.toNat = 5 * ((s.getV x).toNat % 16) ∧ changesOnly (fun p => p = .index) s t

/-- LD HF, Vx, under both profiles (43_memory_timer_input.md R251), by the spec's decisions D8 and D25 (log 14). -/
def Obligations.HighResolutionGlyphAddress : Prop :=
  ∀ (x : Reg) (s : State), encodedAs (0xF030 ||| regAt x 8) (.ldHF x) ∧
    ∃ t, exec (.ldHF x) s = .next t ∧ t.I.toNat = 0x50 + 10 * ((s.getV x).toNat % 16) ∧
      changesOnly (fun p => p = .index) s t

/-- LD B, Vx stores the three decimal digits at I, I+1, I+2, each address reduced mod 4096 (43_memory_timer_input.md
R253). The reduction mod 4096 is the spec's decision D1 (log 14). -/
def Obligations.BcdStoresTheDecimalDigits : Prop :=
  ∀ (x : Reg) (s : State), s.mem.wf = true → encodedAs (0xF033 ||| regAt x 8) (.ldB x) ∧
    ∃ t, exec (.ldB x) s = .next t ∧
      (t.mem.read (effAddr (s.indexPlus 0))).toNat = (s.getV x).toNat / 100 ∧
      (t.mem.read (effAddr (s.indexPlus 1))).toNat = (s.getV x).toNat / 10 % 10 ∧
      (t.mem.read (effAddr (s.indexPlus 2))).toNat = (s.getV x).toNat % 10 ∧
      changesOnly (fun p => ∃ k, k < 3 ∧ p = .memByte (effAddr (s.indexPlus k))) s t

/-- LD [I], Vx stores V0 to Vx at I, I+1, .., and moves I under CHIP8 only (43_memory_timer_input.md R256). The
reductions mod 4096 and of I mod 2^16 are the spec's decisions D1, D3 (log 14). -/
def Obligations.StoreRegistersWritesV0ToVx : Prop :=
  ∀ (x : Reg) (s : State), s.mem.wf = true → encodedAs (0xF055 ||| regAt x 8) (.ldMemVx x) ∧
    ∃ t, exec (.ldMemVx x) s = .next t ∧
      (∀ i : Reg, i ≤ x → t.mem.read (effAddr (s.indexPlus i.val)) = s.getV i) ∧
      (s.profile = .chip8 → t.I.toNat = (s.I.toNat + x.val + 1) % 65536) ∧ (s.profile = .schip → t.I = s.I) ∧
      changesOnly (fun p => (∃ i : Reg, i ≤ x ∧ p = .memByte (effAddr (s.indexPlus i.val))) ∨ p = .index) s t

/-- LD Vx, [I] loads V0 to Vx from I, I+1, .., and moves I under CHIP8 only (43_memory_timer_input.md R257). The
reductions mod 4096 and of I mod 2^16 are the spec's decisions D1, D3 (log 14). -/
def Obligations.LoadRegistersReadsV0ToVx : Prop :=
  ∀ (x : Reg) (s : State), encodedAs (0xF065 ||| regAt x 8) (.ldVxMem x) ∧
    ∃ t, exec (.ldVxMem x) s = .next t ∧
      (∀ i : Reg, i ≤ x → t.getV i = s.mem.read (effAddr (s.indexPlus i.val))) ∧
      (s.profile = .chip8 → t.I.toNat = (s.I.toNat + x.val + 1) % 65536) ∧ (s.profile = .schip → t.I = s.I) ∧
      changesOnly (fun p => (∃ i : Reg, i ≤ x ∧ p = .reg i) ∨ p = .index) s t

/-- What LD [I], Vx stored, LD Vx, [I] from the same I loads back, whatever the registers held in between
(43_memory_timer_input.md section 4). -/
def Obligations.StoreThenLoadRestoresTheRegisters : Prop :=
  ∀ (x : Reg) (s t u v : State), s.mem.wf = true → exec (.ldMemVx x) s = .next t →
    u.mem = t.mem → u.I = s.I → exec (.ldVxMem x) u = .next v → ∀ i : Reg, i ≤ x → v.getV i = s.getV i

/-- LD R, Vx and LD Vx, R move V0 to V(min(x, 7)) (43_memory_timer_input.md R262, R263). That both run under CHIP8 too
is the spec's decision D8 (log 14). -/
def Obligations.FlagsStorageMovesAtMostEightRegisters : Prop :=
  ∀ (x : Reg) (s : State),
    encodedAs (0xF075 ||| regAt x 8) (.ldRVx x) ∧
    (∃ t, exec (.ldRVx x) s = .next t ∧ (∀ i : Reg, i ≤ x → i ≤ 7 → t.getFlag i = s.getV i) ∧
      changesOnly (fun p => ∃ i : Reg, i ≤ x ∧ i ≤ 7 ∧ p = .flag i) s t) ∧
    encodedAs (0xF085 ||| regAt x 8) (.ldVxR x) ∧
    (∃ t, exec (.ldVxR x) s = .next t ∧ (∀ i : Reg, i ≤ x → i ≤ 7 → t.getV i = s.getFlag i) ∧
      changesOnly (fun p => ∃ i : Reg, i ≤ x ∧ i ≤ 7 ∧ p = .reg i) s t)

/-! ### The host's commands -/

/-- Tick decrements each timer that is not 0, whatever waiting and halted are (60_exceptions.md R291); KeyDown sets
its key and changes nothing else (R292); AckDisplay clears disp_changed (R295). Tick while halted and AckDisplay are
the spec's decisions D30, D17 (log 14). -/
def Obligations.TickKeyDownAndAckDisplay : Prop :=
  ∀ (k : Reg) (s : State),
    (∃ t, command .tick s = .next t ∧ t.DT.toNat = s.DT.toNat - 1 ∧ t.ST.toNat = s.ST.toNat - 1 ∧
      changesOnly (fun p => p = .DT ∨ p = .ST) s t) ∧
    (∃ t, command (.keyDown k) s = .next t ∧ t.getKey k = true ∧ changesOnly (fun p => p = .key k) s t) ∧
    ∃ t, command .ackDisplay s = .next t ∧ t.dispChanged = false ∧ changesOnly (fun p => p = .dispChanged) s t

/-- Reset gives every state element its reset value (10_state.md R39), with PROFILE latched, and State.reset is
Reset(SCHIP) (the model's choice of argument: log 1). The values of the elements the spec added are its decisions D17,
D19, D28 (log 14); the font bytes are general knowledge by its own mark (log 4); that `draws` goes on is the model's
choice (log 2). -/
def Obligations.ResetGivesEveryElementItsValue : Prop :=
  State.reset = State.resetTo .schip ∧
  ∀ (p : Profile) (s : State), ∃ t, command (.reset p) s = .next t ∧ t = { State.resetTo p with draws := s.draws } ∧
    t.profile = p ∧
    (∀ a, a < 0x050 → t.mem.read a = loresFont.getD a 0) ∧
    (∀ a, 0x050 ≤ a → a < 0x0F0 → t.mem.read a = hiresFont.getD (a - 0x050) 0) ∧
    (∀ a, 0x0F0 ≤ a → t.mem.read a = 0) ∧
    (∀ i : Reg, t.getV i = 0) ∧ t.I = 0x0000 ∧ t.pc = 0x0200 ∧ t.sp.val = 0 ∧ (∀ j : Fin 16, t.getStack j = 0x0000) ∧
    (∀ c r, t.disp.cell c r = false) ∧ t.hires = false ∧ t.DT = 0 ∧ t.ST = 0 ∧ (∀ k : Reg, t.getKey k = false) ∧
    (∀ j : Reg, t.getFlag j = 0) ∧ t.waiting = false ∧ t.waitReg = 0 ∧ t.dispChanged = false ∧ t.halted = false ∧
    t.diag = []

/-- LoadRom puts an image of at most 3584 bytes at 0x200, and refuses a longer one with memory unchanged
(70_reset_and_hazards.md R322). The failure's form is the spec's decision D29 (log 14); no duty of the host is assumed
(log 11). -/
def Obligations.LoadRomLoadsOrRefusesTheImage : Prop :=
  ∀ (image : List Byte) (s : State), s.mem.wf = true →
    ∃ t, command (.loadRom image) s = .next t ∧
      (loadSucceeds image = true ↔ image.length ≤ 3584) ∧
      (image.length ≤ 3584 →
        (∀ i, i < image.length → t.mem.read (0x200 + i) = image.getD i 0) ∧
        changesOnly (fun p => ∃ i, i < image.length ∧ p = .memByte (0x200 + i)) s t) ∧
      (image.length > 3584 →
        t.diag = s.diag ++ [.loadTooLarge image.length] ∧ changesOnly (fun p => p = .diag) s t)

/-! ### The whole machine -/

/-- Reset, under either profile, meets the invariant. The invariants are the spec's own inference (R38); SCHIP is the
model's choice (log 1). -/
def Obligations.ResetMeetsTheInvariant : Prop :=
  ∀ p : Profile, (State.resetTo p).Inv ∧ State.reset.Inv

/-- Every step keeps the invariants of 10_state.md section 9, from every state that meets them. R38, which lists them,
is marked as the spec's own inference; memory's canonical form is the model's. -/
def Obligations.StepKeepsTheInvariant : Prop :=
  ∀ s t : State, s.Inv → step s = .next t → t.Inv

/-- Every list of host commands keeps the invariants, from every state that meets them (10_state.md section 9). R38,
which lists them, is marked as the spec's own inference; memory's canonical form is the model's. No order of commands
is assumed (log 11). -/
def Obligations.HostCommandsKeepTheInvariant : Prop :=
  ∀ (cs : List Command) (s : State), s.Inv → ∃ t, commands cs s = .next t ∧ t.Inv

/-- Every part of the state is written by its named instructions only: memory by Fx33 and Fx55, the stack by CALL and RET,
flags[8..15], key and PROFILE by none, and so on (10_state.md sections 2 to 6; 20_memory.md section 4). -/
def Obligations.EveryPartHasOnlyItsNamedWriters : Prop :=
  ∀ (i : Instr) (s t : State) (q : Part), exec i s = .next t → writes q i = false → q.same s t

/-- What a Step does to the mode bits: it never ends a wait or a halt, begins one only by Fx0A or 00FD, and changes
the resolution only by 00FE and 00FF (10_state.md sections 4, 6). The halted bit is the spec's decision D19 (log 14).
-/
def Obligations.StepChangesModeBitsOnlyByTheirInstructions : Prop :=
  ∀ s t : State, step s = .next t →
    (s.waiting = true → t.waiting = true) ∧ (s.halted = true → t.halted = true) ∧
    (s.waiting = false → t.waiting = true → ∃ x, decode s.profile (wordAtPc s) = .instr (.ldVxK x)) ∧
    (s.halted = false → t.halted = true → decode s.profile (wordAtPc s) = .instr .exit) ∧
    (t.hires ≠ s.hires → decode s.profile (wordAtPc s) = .instr .low ∨
      (s.profile = .schip ∧ decode s.profile (wordAtPc s) = .instr .high))

/-- No instruction reads ST (10_state.md section 5): states that differ only in ST step to states that differ only in ST. -/
def Obligations.SoundTimerIsNeverRead : Prop :=
  ∀ (s t : State) (v : Byte), step s = .next t →
    ∃ u, step { s with ST := v } = .next u ∧ u = { t with ST := u.ST }

/-- No instruction reads a stack entry at an index not below sp (10_state.md section 3): states that differ only in
such entries step to states that differ only in such entries. It is the spec's decision D16 (log 14). -/
def Obligations.DeadStackEntriesAreNeverRead : Prop :=
  ∀ s s' t : State, sameLiveStack s s' → step s = .next t → ∃ t', step s' = .next t' ∧ sameLiveStack t t'

/-- A byte stored by Fx55 at the next instruction's address is what the next fetch reads there (20_memory.md section
6; 70_reset_and_hazards.md section 3). R74 is marked as the spec's own inference. -/
def Obligations.StoredBytesAreFetched : Prop :=
  ∀ (x : Reg) (s t : State), s.mem.wf = true → exec (.ldMemVx x) s = .next t → t.waiting = false → t.halted = false →
    ∀ i j : Reg, i ≤ x → j ≤ x → effAddr (s.indexPlus i.val) = effAddr t.pc →
      effAddr (s.indexPlus j.val) = effAddr (t.pc + 1) →
      ∀ k : Instr, decode t.profile (wordOfBytes (s.getV i) (s.getV j)) = .instr k →
        step t = exec k { t with pc := t.pc + 2 }

/-- Memories in canonical form that read alike are the same data (20_memory.md section 2). The list form is the
model's. -/
def Obligations.EqualContentsAreEqualMemories : Prop :=
  ∀ m m' : Memory, m.wf = true → m'.wf = true → (∀ a, a < 4096 → m.read a = m'.read a) → m = m'
end

