-- ==== Sys2Proof/Laws/Decode.lean ====
section
/-! SUPPORT. Each field of each format (30_encoding.md R81, R82): what a field reads from a word the format laid out, and that
the fields of a word make the word again. -/

namespace Sys2Proof

theorem extract_append_high (a b : Nat) (x : BitVec a) (y : BitVec b) : (x ++ y).extractLsb' b a = x := by
  apply BitVec.eq_of_getLsbD_eq; intro i hi; simp [hi, BitVec.getLsbD_append]

theorem extract_append_low (a b : Nat) (x : BitVec a) (y : BitVec b) : (x ++ y).extractLsb' 0 b = y := by
  apply BitVec.eq_of_getLsbD_eq; intro i hi; simp [hi, BitVec.getLsbD_append]

theorem extract_append_skip (a b s l : Nat) (x : BitVec a) (y : BitVec b) :
    (x ++ y).extractLsb' (b + s) l = x.extractLsb' s l := by
  apply BitVec.eq_of_getLsbD_eq; intro i hi
  simp [hi, BitVec.getLsbD_append, show ¬ (b + s + i < b) by omega, show b + s + i - b = s + i by omega]

/-! ### Format A -/

@[simp] theorem opField_formatA (op : Nibble) (nnn : Addr) : opField (formatA op nnn) = op :=
  extract_append_high 4 12 op nnn
@[simp] theorem nnnField_formatA (op : Nibble) (nnn : Addr) : nnnField (formatA op nnn) = nnn :=
  extract_append_low 4 12 op nnn

/-! ### Formats XB and XF -/

@[simp] theorem opField_formatXB (op : Nibble) (x : Reg) (nn : Byte) : opField (formatXB op x nn) = op :=
  (extract_append_skip 8 8 4 4 _ _).trans (extract_append_high 4 4 _ _)
@[simp] theorem xField_formatXB (op : Nibble) (x : Reg) (nn : Byte) : xField (formatXB op x nn) = x :=
  (congrArg BitVec.toFin ((extract_append_skip 8 8 0 4 _ _).trans (extract_append_low 4 4 _ _))).trans rfl
@[simp] theorem nnField_formatXB (op : Nibble) (x : Reg) (nn : Byte) : nnField (formatXB op x nn) = nn :=
  extract_append_low 8 8 _ _

/-! ### Formats XY and XYN -/

@[simp] theorem opField_formatXY (op : Nibble) (x y : Reg) (n : Nibble) : opField (formatXY op x y n) = op :=
  (extract_append_skip 12 4 8 4 _ _).trans ((extract_append_skip 8 4 4 4 _ _).trans (extract_append_high 4 4 _ _))
@[simp] theorem xField_formatXY (op : Nibble) (x y : Reg) (n : Nibble) : xField (formatXY op x y n) = x :=
  (congrArg BitVec.toFin ((extract_append_skip 12 4 4 4 _ _).trans
    ((extract_append_skip 8 4 0 4 _ _).trans (extract_append_low 4 4 _ _)))).trans rfl
@[simp] theorem yField_formatXY (op : Nibble) (x y : Reg) (n : Nibble) : yField (formatXY op x y n) = y :=
  (congrArg BitVec.toFin ((extract_append_skip 12 4 0 4 _ _).trans (extract_append_low 8 4 _ _))).trans rfl
@[simp] theorem nField_formatXY (op : Nibble) (x y : Reg) (n : Nibble) : nField (formatXY op x y n) = n :=
  extract_append_low 12 4 _ _

/-! ### Format S -/

@[simp] theorem opField_formatS (n : Nibble) : opField (formatS n) = 0x0 :=
  (extract_append_skip 12 4 8 4 (0x00C : Addr) n).trans (by decide)
@[simp] theorem highField_formatS (n : Nibble) : (formatS n).extractLsb' 4 12 = 0x00C :=
  extract_append_high 12 4 _ _
@[simp] theorem nField_formatS (n : Nibble) : nField (formatS n) = n := extract_append_low 12 4 _ _

theorem formatS_ne_cls (n : Nibble) : formatS n ≠ 0x00E0#16 := by revert n; decide
theorem formatS_ne_ret (n : Nibble) : formatS n ≠ 0x00EE#16 := by revert n; decide

/-! ### The fields of a word make the word -/

theorem getLsbD_extract (w : Word) (s l i : Nat) :
    (w.extractLsb' s l).getLsbD i = (decide (i < l) && w.getLsbD (s + i)) := by
  simp

theorem append_extract (a b : Nat) (w : BitVec (a + b)) : w.extractLsb' b a ++ w.extractLsb' 0 b = w := by
  apply BitVec.eq_of_getLsbD_eq
  intro i hi
  rw [BitVec.getLsbD_append]
  by_cases h : i < b
  · simp [h]
  · simp [h, show i - b < a by omega, show b + (i - b) = i by omega]

theorem extract_extract (w : Word) (s l s' l' : Nat) (h : s' + l' ≤ l) :
    (w.extractLsb' s l).extractLsb' s' l' = w.extractLsb' (s + s') l' := by
  apply BitVec.eq_of_getLsbD_eq
  intro i hi
  simp [hi, show s' + i < l by omega, Nat.add_assoc]

theorem formatA_fields (w : Word) : formatA (opField w) (nnnField w) = w := append_extract 4 12 w

theorem formatXB_fields (w : Word) : formatXB (opField w) (xField w) (nnField w) = w := by
  have h1 : (w.extractLsb' 8 8).extractLsb' 4 4 ++ (w.extractLsb' 8 8).extractLsb' 0 4 = w.extractLsb' 8 8 :=
    append_extract 4 4 (w.extractLsb' 8 8)
  rw [extract_extract w 8 8 4 4 (by decide), extract_extract w 8 8 0 4 (by decide)] at h1
  show (w.extractLsb' 12 4 ++ w.extractLsb' 8 4) ++ w.extractLsb' 0 8 = w
  exact (congrArg (· ++ w.extractLsb' 0 8) h1).trans (append_extract 8 8 w)

theorem formatXY_fields (w : Word) : formatXY (opField w) (xField w) (yField w) (nField w) = w := by
  have h0 : (w.extractLsb' 8 8).extractLsb' 4 4 ++ (w.extractLsb' 8 8).extractLsb' 0 4 = w.extractLsb' 8 8 :=
    append_extract 4 4 (w.extractLsb' 8 8)
  rw [extract_extract w 8 8 4 4 (by decide), extract_extract w 8 8 0 4 (by decide)] at h0
  have h1 : (w.extractLsb' 4 12).extractLsb' 4 8 ++ (w.extractLsb' 4 12).extractLsb' 0 4 = w.extractLsb' 4 12 :=
    append_extract 8 4 (w.extractLsb' 4 12)
  rw [extract_extract w 4 12 4 8 (by decide), extract_extract w 4 12 0 4 (by decide)] at h1
  show ((w.extractLsb' 12 4 ++ w.extractLsb' 8 4) ++ w.extractLsb' 4 4) ++ w.extractLsb' 0 4 = w
  exact (congrArg (· ++ w.extractLsb' 0 4) ((congrArg (· ++ w.extractLsb' 4 4) h0).trans h1)).trans (append_extract 12 4 w)

theorem formatS_fields (w : Word) (h : w.extractLsb' 4 12 = 0x00C) : formatS (nField w) = w := by
  show (0x00C : Addr) ++ w.extractLsb' 0 4 = w
  rw [← h]
  exact append_extract 12 4 w

/-- Storing a word as two bytes and reading it back gives the word (20_memory.md R65). -/
@[simp] theorem wordOfBytes_bytes (w : Word) : wordOfBytes (hiByte w) (loByte w) = w := append_extract 8 8 w

end Sys2Proof
end

