-- ==== Sys2Proof/Laws/Memory.lean ====
section
/-! SUPPORT. The laws of memory: a read after a write, the canonical form kept by every operation, and equal contents
being equal data (20_memory.md R62 to R64). -/

namespace Sys2Proof.Machine

theorem effAddr_lt (a : Word) : effAddr a < 4096 := Nat.mod_lt _ (by decide)

/-- What a write does to every address. -/
theorem Memory.read_write (m : Memory) (a c : Nat) (b : Byte) (h : m.wf = true) :
    (m.write a b).read c = if c = a then b else m.read c := by
  induction m with
  | nil =>
    simp only [Memory.write]
    split_ifs <;> simp_all [Memory.read]
  | cons e rest ih =>
    obtain ⟨k, v⟩ := e
    simp only [Memory.wf, Bool.and_eq_true, List.all_eq_true, decide_eq_true_eq] at h
    obtain ⟨⟨⟨-, -⟩, hall⟩, hrest⟩ := h
    have absent : ∀ (l : Memory) (x : Nat), (∀ e ∈ l, x < e.1) → Memory.read l x = resetByte x := by
      intro l x hl
      induction l with
      | nil => rfl
      | cons e l ihl =>
        have h1 := hl e (by simp)
        simp only [Memory.read, if_neg (by omega : ¬ x = e.1)]
        exact ihl fun e' he' => hl e' (by simp [he'])
    simp only [Memory.write]
    have hk : Memory.read rest k = resetByte k := absent rest k hall
    have ha : a < k → Memory.read rest a = resetByte a :=
      fun hak => absent rest a fun e he => hak.trans (hall e he)
    by_cases h1 : a < k
    · rw [if_pos h1]
      split_ifs with h2 h3 h3
      · rw [h3, Memory.read, if_neg (by omega), ha h1, h2]
      · rfl
      · rw [h3, Memory.read, if_pos rfl]
      · rw [Memory.read, if_neg h3]
    · rw [if_neg h1]
      by_cases h2 : a = k
      · subst h2
        rw [if_pos rfl]
        split_ifs with h3 h4 h4
        · rw [h4, hk, h3]
        · rw [Memory.read, if_neg h4]
        · rw [h4, Memory.read, if_pos rfl]
        · rw [Memory.read, if_neg h4, Memory.read, if_neg h4]
      · rw [if_neg h2, Memory.read, Memory.read, ih hrest]
        split_ifs with h3 h4 h4 <;> first | rfl | omega

/-- The keys of a written memory are bounded below as the old ones and the address are. -/
theorem Memory.write_keys (m : Memory) (a : Nat) (b : Byte) (lo : Nat) (hlo : lo < a)
    (hm : ∀ e ∈ m, lo < e.1) : ∀ e ∈ m.write a b, lo < e.1 := by
  induction m with
  | nil =>
    intro e he
    simp only [Memory.write] at he
    split_ifs at he <;> simp_all
  | cons f rest ih =>
    obtain ⟨k, v⟩ := f
    have hk : lo < k := hm (k, v) (by simp)
    have hr : ∀ e ∈ rest, lo < e.1 := fun e he => hm e (by simp [he])
    have ih' := ih hr
    simp only [Memory.write]
    split_ifs
    · exact hm
    · exact List.forall_mem_cons.2 ⟨hlo, hm⟩
    · exact hr
    · exact List.forall_mem_cons.2 ⟨hlo, hr⟩
    · exact List.forall_mem_cons.2 ⟨hk, ih'⟩

/-- Every write keeps the canonical form. -/
theorem Memory.wf_write (m : Memory) (a : Nat) (b : Byte) (ha : a < 4096) (h : m.wf = true) :
    (m.write a b).wf = true := by
  induction m with
  | nil => simp only [Memory.write]; split_ifs <;> simp_all [Memory.wf]
  | cons e rest ih =>
    obtain ⟨k, v⟩ := e
    have h' := h
    simp only [Memory.wf, Bool.and_eq_true, List.all_eq_true, decide_eq_true_eq, bne_iff_ne] at h'
    obtain ⟨⟨⟨hk, hv⟩, hall⟩, hrest⟩ := h'
    simp only [Memory.write]
    split_ifs with h1 h2 h3 h4
    · exact h
    · simp only [Memory.wf, Bool.and_eq_true, List.all_eq_true, decide_eq_true_eq, bne_iff_ne, List.mem_cons]
      refine ⟨⟨⟨ha, h2⟩, ?_⟩, ⟨⟨hk, hv⟩, hall⟩, hrest⟩
      rintro e (rfl | he)
      · exact h1
      · exact h1.trans (hall e he)
    · exact hrest
    · subst h3
      simp only [Memory.wf, Bool.and_eq_true, List.all_eq_true, decide_eq_true_eq, bne_iff_ne]
      exact ⟨⟨⟨ha, h4⟩, hall⟩, hrest⟩
    · simp only [Memory.wf, Bool.and_eq_true, List.all_eq_true, decide_eq_true_eq, bne_iff_ne]
      exact ⟨⟨⟨hk, hv⟩, Memory.write_keys rest a b k (by omega) hall⟩, ih hrest⟩

/-- A run of writes keeps the canonical form. -/
theorem Memory.wf_writeFrom (m : Memory) (a : Nat) (bs : List Byte) (ha : a + bs.length ≤ 4096) (h : m.wf = true) :
    (m.writeFrom a bs).wf = true := by
  induction bs generalizing m a with
  | nil => exact h
  | cons b bs ih =>
    simp only [List.length_cons] at ha
    exact ih _ _ (by omega) (Memory.wf_write m a b (by omega) h)

/-- What a run of writes does to every address. -/
theorem Memory.read_writeFrom (m : Memory) (a c : Nat) (bs : List Byte) (ha : a + bs.length ≤ 4096) (h : m.wf = true) :
    (m.writeFrom a bs).read c = if a ≤ c ∧ c < a + bs.length then bs.getD (c - a) 0 else m.read c := by
  induction bs generalizing m a with
  | nil => simp only [Memory.writeFrom, List.length_nil]; rw [if_neg (by omega)]
  | cons b bs ih =>
    simp only [List.length_cons] at ha
    simp only [Memory.writeFrom, List.length_cons]
    rw [ih _ _ (by omega) (Memory.wf_write m a b (by omega) h), Memory.read_write m a c b h]
    by_cases hc : c = a
    · subst hc
      rw [if_neg (by omega), if_pos rfl, if_pos (by omega)]
      simp
    · by_cases hin : a + 1 ≤ c ∧ c < a + 1 + bs.length
      · rw [if_pos hin, if_pos (by omega), show c - a = (c - (a + 1)) + 1 by omega]
        rfl
      · rw [if_neg hin, if_neg hc, if_neg (by omega)]

theorem State.wf_memWrite (s : State) (a : Word) (b : Byte) (h : s.mem.wf = true) : (s.memWrite a b).mem.wf = true :=
  Memory.wf_write _ _ _ (effAddr_lt a) h

/-- A read after a write: the value written at the same reduced address, the old value elsewhere. -/
theorem State.memRead_memWrite (s : State) (a c : Word) (b : Byte) (h : s.mem.wf = true) :
    (s.memWrite a b).memRead c = if effAddr c = effAddr a then b else s.memRead c :=
  Memory.read_write _ _ _ _ h

/-- An image loads exactly when it fits in 3584 bytes (70_reset_and_hazards.md R322). -/
theorem loadSucceeds_iff (image : List Byte) : loadSucceeds image = true ↔ image.length ≤ 3584 :=
  decide_eq_true_iff

end Sys2Proof.Machine
end

