-- ==== Sys2Proof/Laws/State.lean ====
section
/-! SUPPORT. One lemma per field per update, and per accessor per update that does not reach it, true by definition and
tagged for simp, so that no proof unfolds a record update. -/

namespace Sys2Proof.Machine

variable (s : State)

/-! ### setV -/

@[simp] theorem State.profile_setV (i : Reg) (b : Byte) : (s.setV i b).profile = s.profile := rfl
@[simp] theorem State.mem_setV (i : Reg) (b : Byte) : (s.setV i b).mem = s.mem := rfl
@[simp] theorem State.V_setV (i : Reg) (b : Byte) : (s.setV i b).V = s.V.set i.val b i.isLt := rfl
@[simp] theorem State.I_setV (i : Reg) (b : Byte) : (s.setV i b).I = s.I := rfl
@[simp] theorem State.pc_setV (i : Reg) (b : Byte) : (s.setV i b).pc = s.pc := rfl
@[simp] theorem State.stack_setV (i : Reg) (b : Byte) : (s.setV i b).stack = s.stack := rfl
@[simp] theorem State.sp_setV (i : Reg) (b : Byte) : (s.setV i b).sp = s.sp := rfl
@[simp] theorem State.disp_setV (i : Reg) (b : Byte) : (s.setV i b).disp = s.disp := rfl
@[simp] theorem State.hires_setV (i : Reg) (b : Byte) : (s.setV i b).hires = s.hires := rfl
@[simp] theorem State.dispChanged_setV (i : Reg) (b : Byte) : (s.setV i b).dispChanged = s.dispChanged := rfl
@[simp] theorem State.DT_setV (i : Reg) (b : Byte) : (s.setV i b).DT = s.DT := rfl
@[simp] theorem State.ST_setV (i : Reg) (b : Byte) : (s.setV i b).ST = s.ST := rfl
@[simp] theorem State.key_setV (i : Reg) (b : Byte) : (s.setV i b).key = s.key := rfl
@[simp] theorem State.flags_setV (i : Reg) (b : Byte) : (s.setV i b).flags = s.flags := rfl
@[simp] theorem State.waiting_setV (i : Reg) (b : Byte) : (s.setV i b).waiting = s.waiting := rfl
@[simp] theorem State.waitReg_setV (i : Reg) (b : Byte) : (s.setV i b).waitReg = s.waitReg := rfl
@[simp] theorem State.halted_setV (i : Reg) (b : Byte) : (s.setV i b).halted = s.halted := rfl
@[simp] theorem State.diag_setV (i : Reg) (b : Byte) : (s.setV i b).diag = s.diag := rfl
@[simp] theorem State.draws_setV (i : Reg) (b : Byte) : (s.setV i b).draws = s.draws := rfl
@[simp] theorem State.getKey_setV (i : Reg) (b : Byte) (j : Reg) : (s.setV i b).getKey j = s.getKey j := rfl
@[simp] theorem State.getFlag_setV (i : Reg) (b : Byte) (j : Reg) : (s.setV i b).getFlag j = s.getFlag j := rfl
@[simp] theorem State.getStack_setV (i : Reg) (b : Byte) (j : Fin 16) : (s.setV i b).getStack j = s.getStack j := rfl
@[simp] theorem State.memRead_setV (i : Reg) (b : Byte) (c : Word) : (s.setV i b).memRead c = s.memRead c := rfl

/-! ### setI -/

@[simp] theorem State.profile_setI (a : Word) : (s.setI a).profile = s.profile := rfl
@[simp] theorem State.mem_setI (a : Word) : (s.setI a).mem = s.mem := rfl
@[simp] theorem State.V_setI (a : Word) : (s.setI a).V = s.V := rfl
@[simp] theorem State.I_setI (a : Word) : (s.setI a).I = a := rfl
@[simp] theorem State.pc_setI (a : Word) : (s.setI a).pc = s.pc := rfl
@[simp] theorem State.stack_setI (a : Word) : (s.setI a).stack = s.stack := rfl
@[simp] theorem State.sp_setI (a : Word) : (s.setI a).sp = s.sp := rfl
@[simp] theorem State.disp_setI (a : Word) : (s.setI a).disp = s.disp := rfl
@[simp] theorem State.hires_setI (a : Word) : (s.setI a).hires = s.hires := rfl
@[simp] theorem State.dispChanged_setI (a : Word) : (s.setI a).dispChanged = s.dispChanged := rfl
@[simp] theorem State.DT_setI (a : Word) : (s.setI a).DT = s.DT := rfl
@[simp] theorem State.ST_setI (a : Word) : (s.setI a).ST = s.ST := rfl
@[simp] theorem State.key_setI (a : Word) : (s.setI a).key = s.key := rfl
@[simp] theorem State.flags_setI (a : Word) : (s.setI a).flags = s.flags := rfl
@[simp] theorem State.waiting_setI (a : Word) : (s.setI a).waiting = s.waiting := rfl
@[simp] theorem State.waitReg_setI (a : Word) : (s.setI a).waitReg = s.waitReg := rfl
@[simp] theorem State.halted_setI (a : Word) : (s.setI a).halted = s.halted := rfl
@[simp] theorem State.diag_setI (a : Word) : (s.setI a).diag = s.diag := rfl
@[simp] theorem State.draws_setI (a : Word) : (s.setI a).draws = s.draws := rfl
@[simp] theorem State.getV_setI (a : Word) (j : Reg) : (s.setI a).getV j = s.getV j := rfl
@[simp] theorem State.getKey_setI (a : Word) (j : Reg) : (s.setI a).getKey j = s.getKey j := rfl
@[simp] theorem State.getFlag_setI (a : Word) (j : Reg) : (s.setI a).getFlag j = s.getFlag j := rfl
@[simp] theorem State.getStack_setI (a : Word) (j : Fin 16) : (s.setI a).getStack j = s.getStack j := rfl
@[simp] theorem State.memRead_setI (a : Word) (c : Word) : (s.setI a).memRead c = s.memRead c := rfl

/-! ### setPc -/

@[simp] theorem State.profile_setPc (a : Word) : (s.setPc a).profile = s.profile := rfl
@[simp] theorem State.mem_setPc (a : Word) : (s.setPc a).mem = s.mem := rfl
@[simp] theorem State.V_setPc (a : Word) : (s.setPc a).V = s.V := rfl
@[simp] theorem State.I_setPc (a : Word) : (s.setPc a).I = s.I := rfl
@[simp] theorem State.pc_setPc (a : Word) : (s.setPc a).pc = a := rfl
@[simp] theorem State.stack_setPc (a : Word) : (s.setPc a).stack = s.stack := rfl
@[simp] theorem State.sp_setPc (a : Word) : (s.setPc a).sp = s.sp := rfl
@[simp] theorem State.disp_setPc (a : Word) : (s.setPc a).disp = s.disp := rfl
@[simp] theorem State.hires_setPc (a : Word) : (s.setPc a).hires = s.hires := rfl
@[simp] theorem State.dispChanged_setPc (a : Word) : (s.setPc a).dispChanged = s.dispChanged := rfl
@[simp] theorem State.DT_setPc (a : Word) : (s.setPc a).DT = s.DT := rfl
@[simp] theorem State.ST_setPc (a : Word) : (s.setPc a).ST = s.ST := rfl
@[simp] theorem State.key_setPc (a : Word) : (s.setPc a).key = s.key := rfl
@[simp] theorem State.flags_setPc (a : Word) : (s.setPc a).flags = s.flags := rfl
@[simp] theorem State.waiting_setPc (a : Word) : (s.setPc a).waiting = s.waiting := rfl
@[simp] theorem State.waitReg_setPc (a : Word) : (s.setPc a).waitReg = s.waitReg := rfl
@[simp] theorem State.halted_setPc (a : Word) : (s.setPc a).halted = s.halted := rfl
@[simp] theorem State.diag_setPc (a : Word) : (s.setPc a).diag = s.diag := rfl
@[simp] theorem State.draws_setPc (a : Word) : (s.setPc a).draws = s.draws := rfl
@[simp] theorem State.getV_setPc (a : Word) (j : Reg) : (s.setPc a).getV j = s.getV j := rfl
@[simp] theorem State.getKey_setPc (a : Word) (j : Reg) : (s.setPc a).getKey j = s.getKey j := rfl
@[simp] theorem State.getFlag_setPc (a : Word) (j : Reg) : (s.setPc a).getFlag j = s.getFlag j := rfl
@[simp] theorem State.getStack_setPc (a : Word) (j : Fin 16) : (s.setPc a).getStack j = s.getStack j := rfl
@[simp] theorem State.memRead_setPc (a : Word) (c : Word) : (s.setPc a).memRead c = s.memRead c := rfl

/-! ### advancePc -/

@[simp] theorem State.profile_advancePc : (s.advancePc).profile = s.profile := rfl
@[simp] theorem State.mem_advancePc : (s.advancePc).mem = s.mem := rfl
@[simp] theorem State.V_advancePc : (s.advancePc).V = s.V := rfl
@[simp] theorem State.I_advancePc : (s.advancePc).I = s.I := rfl
@[simp] theorem State.pc_advancePc : (s.advancePc).pc = s.pc + 2 := rfl
@[simp] theorem State.stack_advancePc : (s.advancePc).stack = s.stack := rfl
@[simp] theorem State.sp_advancePc : (s.advancePc).sp = s.sp := rfl
@[simp] theorem State.disp_advancePc : (s.advancePc).disp = s.disp := rfl
@[simp] theorem State.hires_advancePc : (s.advancePc).hires = s.hires := rfl
@[simp] theorem State.dispChanged_advancePc : (s.advancePc).dispChanged = s.dispChanged := rfl
@[simp] theorem State.DT_advancePc : (s.advancePc).DT = s.DT := rfl
@[simp] theorem State.ST_advancePc : (s.advancePc).ST = s.ST := rfl
@[simp] theorem State.key_advancePc : (s.advancePc).key = s.key := rfl
@[simp] theorem State.flags_advancePc : (s.advancePc).flags = s.flags := rfl
@[simp] theorem State.waiting_advancePc : (s.advancePc).waiting = s.waiting := rfl
@[simp] theorem State.waitReg_advancePc : (s.advancePc).waitReg = s.waitReg := rfl
@[simp] theorem State.halted_advancePc : (s.advancePc).halted = s.halted := rfl
@[simp] theorem State.diag_advancePc : (s.advancePc).diag = s.diag := rfl
@[simp] theorem State.draws_advancePc : (s.advancePc).draws = s.draws := rfl
@[simp] theorem State.getV_advancePc (j : Reg) : (s.advancePc).getV j = s.getV j := rfl
@[simp] theorem State.getKey_advancePc (j : Reg) : (s.advancePc).getKey j = s.getKey j := rfl
@[simp] theorem State.getFlag_advancePc (j : Reg) : (s.advancePc).getFlag j = s.getFlag j := rfl
@[simp] theorem State.getStack_advancePc (j : Fin 16) : (s.advancePc).getStack j = s.getStack j := rfl
@[simp] theorem State.memRead_advancePc (c : Word) : (s.advancePc).memRead c = s.memRead c := rfl

/-! ### setDT -/

@[simp] theorem State.profile_setDT (b : Byte) : (s.setDT b).profile = s.profile := rfl
@[simp] theorem State.mem_setDT (b : Byte) : (s.setDT b).mem = s.mem := rfl
@[simp] theorem State.V_setDT (b : Byte) : (s.setDT b).V = s.V := rfl
@[simp] theorem State.I_setDT (b : Byte) : (s.setDT b).I = s.I := rfl
@[simp] theorem State.pc_setDT (b : Byte) : (s.setDT b).pc = s.pc := rfl
@[simp] theorem State.stack_setDT (b : Byte) : (s.setDT b).stack = s.stack := rfl
@[simp] theorem State.sp_setDT (b : Byte) : (s.setDT b).sp = s.sp := rfl
@[simp] theorem State.disp_setDT (b : Byte) : (s.setDT b).disp = s.disp := rfl
@[simp] theorem State.hires_setDT (b : Byte) : (s.setDT b).hires = s.hires := rfl
@[simp] theorem State.dispChanged_setDT (b : Byte) : (s.setDT b).dispChanged = s.dispChanged := rfl
@[simp] theorem State.DT_setDT (b : Byte) : (s.setDT b).DT = b := rfl
@[simp] theorem State.ST_setDT (b : Byte) : (s.setDT b).ST = s.ST := rfl
@[simp] theorem State.key_setDT (b : Byte) : (s.setDT b).key = s.key := rfl
@[simp] theorem State.flags_setDT (b : Byte) : (s.setDT b).flags = s.flags := rfl
@[simp] theorem State.waiting_setDT (b : Byte) : (s.setDT b).waiting = s.waiting := rfl
@[simp] theorem State.waitReg_setDT (b : Byte) : (s.setDT b).waitReg = s.waitReg := rfl
@[simp] theorem State.halted_setDT (b : Byte) : (s.setDT b).halted = s.halted := rfl
@[simp] theorem State.diag_setDT (b : Byte) : (s.setDT b).diag = s.diag := rfl
@[simp] theorem State.draws_setDT (b : Byte) : (s.setDT b).draws = s.draws := rfl
@[simp] theorem State.getV_setDT (b : Byte) (j : Reg) : (s.setDT b).getV j = s.getV j := rfl
@[simp] theorem State.getKey_setDT (b : Byte) (j : Reg) : (s.setDT b).getKey j = s.getKey j := rfl
@[simp] theorem State.getFlag_setDT (b : Byte) (j : Reg) : (s.setDT b).getFlag j = s.getFlag j := rfl
@[simp] theorem State.getStack_setDT (b : Byte) (j : Fin 16) : (s.setDT b).getStack j = s.getStack j := rfl
@[simp] theorem State.memRead_setDT (b : Byte) (c : Word) : (s.setDT b).memRead c = s.memRead c := rfl

/-! ### setST -/

@[simp] theorem State.profile_setST (b : Byte) : (s.setST b).profile = s.profile := rfl
@[simp] theorem State.mem_setST (b : Byte) : (s.setST b).mem = s.mem := rfl
@[simp] theorem State.V_setST (b : Byte) : (s.setST b).V = s.V := rfl
@[simp] theorem State.I_setST (b : Byte) : (s.setST b).I = s.I := rfl
@[simp] theorem State.pc_setST (b : Byte) : (s.setST b).pc = s.pc := rfl
@[simp] theorem State.stack_setST (b : Byte) : (s.setST b).stack = s.stack := rfl
@[simp] theorem State.sp_setST (b : Byte) : (s.setST b).sp = s.sp := rfl
@[simp] theorem State.disp_setST (b : Byte) : (s.setST b).disp = s.disp := rfl
@[simp] theorem State.hires_setST (b : Byte) : (s.setST b).hires = s.hires := rfl
@[simp] theorem State.dispChanged_setST (b : Byte) : (s.setST b).dispChanged = s.dispChanged := rfl
@[simp] theorem State.DT_setST (b : Byte) : (s.setST b).DT = s.DT := rfl
@[simp] theorem State.ST_setST (b : Byte) : (s.setST b).ST = b := rfl
@[simp] theorem State.key_setST (b : Byte) : (s.setST b).key = s.key := rfl
@[simp] theorem State.flags_setST (b : Byte) : (s.setST b).flags = s.flags := rfl
@[simp] theorem State.waiting_setST (b : Byte) : (s.setST b).waiting = s.waiting := rfl
@[simp] theorem State.waitReg_setST (b : Byte) : (s.setST b).waitReg = s.waitReg := rfl
@[simp] theorem State.halted_setST (b : Byte) : (s.setST b).halted = s.halted := rfl
@[simp] theorem State.diag_setST (b : Byte) : (s.setST b).diag = s.diag := rfl
@[simp] theorem State.draws_setST (b : Byte) : (s.setST b).draws = s.draws := rfl
@[simp] theorem State.getV_setST (b : Byte) (j : Reg) : (s.setST b).getV j = s.getV j := rfl
@[simp] theorem State.getKey_setST (b : Byte) (j : Reg) : (s.setST b).getKey j = s.getKey j := rfl
@[simp] theorem State.getFlag_setST (b : Byte) (j : Reg) : (s.setST b).getFlag j = s.getFlag j := rfl
@[simp] theorem State.getStack_setST (b : Byte) (j : Fin 16) : (s.setST b).getStack j = s.getStack j := rfl
@[simp] theorem State.memRead_setST (b : Byte) (c : Word) : (s.setST b).memRead c = s.memRead c := rfl

/-! ### setHires -/

@[simp] theorem State.profile_setHires (b : Bool) : (s.setHires b).profile = s.profile := rfl
@[simp] theorem State.mem_setHires (b : Bool) : (s.setHires b).mem = s.mem := rfl
@[simp] theorem State.V_setHires (b : Bool) : (s.setHires b).V = s.V := rfl
@[simp] theorem State.I_setHires (b : Bool) : (s.setHires b).I = s.I := rfl
@[simp] theorem State.pc_setHires (b : Bool) : (s.setHires b).pc = s.pc := rfl
@[simp] theorem State.stack_setHires (b : Bool) : (s.setHires b).stack = s.stack := rfl
@[simp] theorem State.sp_setHires (b : Bool) : (s.setHires b).sp = s.sp := rfl
@[simp] theorem State.disp_setHires (b : Bool) : (s.setHires b).disp = s.disp := rfl
@[simp] theorem State.hires_setHires (b : Bool) : (s.setHires b).hires = b := rfl
@[simp] theorem State.dispChanged_setHires (b : Bool) : (s.setHires b).dispChanged = s.dispChanged := rfl
@[simp] theorem State.DT_setHires (b : Bool) : (s.setHires b).DT = s.DT := rfl
@[simp] theorem State.ST_setHires (b : Bool) : (s.setHires b).ST = s.ST := rfl
@[simp] theorem State.key_setHires (b : Bool) : (s.setHires b).key = s.key := rfl
@[simp] theorem State.flags_setHires (b : Bool) : (s.setHires b).flags = s.flags := rfl
@[simp] theorem State.waiting_setHires (b : Bool) : (s.setHires b).waiting = s.waiting := rfl
@[simp] theorem State.waitReg_setHires (b : Bool) : (s.setHires b).waitReg = s.waitReg := rfl
@[simp] theorem State.halted_setHires (b : Bool) : (s.setHires b).halted = s.halted := rfl
@[simp] theorem State.diag_setHires (b : Bool) : (s.setHires b).diag = s.diag := rfl
@[simp] theorem State.draws_setHires (b : Bool) : (s.setHires b).draws = s.draws := rfl
@[simp] theorem State.getV_setHires (b : Bool) (j : Reg) : (s.setHires b).getV j = s.getV j := rfl
@[simp] theorem State.getKey_setHires (b : Bool) (j : Reg) : (s.setHires b).getKey j = s.getKey j := rfl
@[simp] theorem State.getFlag_setHires (b : Bool) (j : Reg) : (s.setHires b).getFlag j = s.getFlag j := rfl
@[simp] theorem State.getStack_setHires (b : Bool) (j : Fin 16) : (s.setHires b).getStack j = s.getStack j := rfl
@[simp] theorem State.memRead_setHires (b : Bool) (c : Word) : (s.setHires b).memRead c = s.memRead c := rfl

/-! ### setHalted -/

@[simp] theorem State.profile_setHalted (b : Bool) : (s.setHalted b).profile = s.profile := rfl
@[simp] theorem State.mem_setHalted (b : Bool) : (s.setHalted b).mem = s.mem := rfl
@[simp] theorem State.V_setHalted (b : Bool) : (s.setHalted b).V = s.V := rfl
@[simp] theorem State.I_setHalted (b : Bool) : (s.setHalted b).I = s.I := rfl
@[simp] theorem State.pc_setHalted (b : Bool) : (s.setHalted b).pc = s.pc := rfl
@[simp] theorem State.stack_setHalted (b : Bool) : (s.setHalted b).stack = s.stack := rfl
@[simp] theorem State.sp_setHalted (b : Bool) : (s.setHalted b).sp = s.sp := rfl
@[simp] theorem State.disp_setHalted (b : Bool) : (s.setHalted b).disp = s.disp := rfl
@[simp] theorem State.hires_setHalted (b : Bool) : (s.setHalted b).hires = s.hires := rfl
@[simp] theorem State.dispChanged_setHalted (b : Bool) : (s.setHalted b).dispChanged = s.dispChanged := rfl
@[simp] theorem State.DT_setHalted (b : Bool) : (s.setHalted b).DT = s.DT := rfl
@[simp] theorem State.ST_setHalted (b : Bool) : (s.setHalted b).ST = s.ST := rfl
@[simp] theorem State.key_setHalted (b : Bool) : (s.setHalted b).key = s.key := rfl
@[simp] theorem State.flags_setHalted (b : Bool) : (s.setHalted b).flags = s.flags := rfl
@[simp] theorem State.waiting_setHalted (b : Bool) : (s.setHalted b).waiting = s.waiting := rfl
@[simp] theorem State.waitReg_setHalted (b : Bool) : (s.setHalted b).waitReg = s.waitReg := rfl
@[simp] theorem State.halted_setHalted (b : Bool) : (s.setHalted b).halted = b := rfl
@[simp] theorem State.diag_setHalted (b : Bool) : (s.setHalted b).diag = s.diag := rfl
@[simp] theorem State.draws_setHalted (b : Bool) : (s.setHalted b).draws = s.draws := rfl
@[simp] theorem State.getV_setHalted (b : Bool) (j : Reg) : (s.setHalted b).getV j = s.getV j := rfl
@[simp] theorem State.getKey_setHalted (b : Bool) (j : Reg) : (s.setHalted b).getKey j = s.getKey j := rfl
@[simp] theorem State.getFlag_setHalted (b : Bool) (j : Reg) : (s.setHalted b).getFlag j = s.getFlag j := rfl
@[simp] theorem State.getStack_setHalted (b : Bool) (j : Fin 16) : (s.setHalted b).getStack j = s.getStack j := rfl
@[simp] theorem State.memRead_setHalted (b : Bool) (c : Word) : (s.setHalted b).memRead c = s.memRead c := rfl

/-! ### setWaiting -/

@[simp] theorem State.profile_setWaiting (b : Bool) : (s.setWaiting b).profile = s.profile := rfl
@[simp] theorem State.mem_setWaiting (b : Bool) : (s.setWaiting b).mem = s.mem := rfl
@[simp] theorem State.V_setWaiting (b : Bool) : (s.setWaiting b).V = s.V := rfl
@[simp] theorem State.I_setWaiting (b : Bool) : (s.setWaiting b).I = s.I := rfl
@[simp] theorem State.pc_setWaiting (b : Bool) : (s.setWaiting b).pc = s.pc := rfl
@[simp] theorem State.stack_setWaiting (b : Bool) : (s.setWaiting b).stack = s.stack := rfl
@[simp] theorem State.sp_setWaiting (b : Bool) : (s.setWaiting b).sp = s.sp := rfl
@[simp] theorem State.disp_setWaiting (b : Bool) : (s.setWaiting b).disp = s.disp := rfl
@[simp] theorem State.hires_setWaiting (b : Bool) : (s.setWaiting b).hires = s.hires := rfl
@[simp] theorem State.dispChanged_setWaiting (b : Bool) : (s.setWaiting b).dispChanged = s.dispChanged := rfl
@[simp] theorem State.DT_setWaiting (b : Bool) : (s.setWaiting b).DT = s.DT := rfl
@[simp] theorem State.ST_setWaiting (b : Bool) : (s.setWaiting b).ST = s.ST := rfl
@[simp] theorem State.key_setWaiting (b : Bool) : (s.setWaiting b).key = s.key := rfl
@[simp] theorem State.flags_setWaiting (b : Bool) : (s.setWaiting b).flags = s.flags := rfl
@[simp] theorem State.waiting_setWaiting (b : Bool) : (s.setWaiting b).waiting = b := rfl
@[simp] theorem State.waitReg_setWaiting (b : Bool) : (s.setWaiting b).waitReg = s.waitReg := rfl
@[simp] theorem State.halted_setWaiting (b : Bool) : (s.setWaiting b).halted = s.halted := rfl
@[simp] theorem State.diag_setWaiting (b : Bool) : (s.setWaiting b).diag = s.diag := rfl
@[simp] theorem State.draws_setWaiting (b : Bool) : (s.setWaiting b).draws = s.draws := rfl
@[simp] theorem State.getV_setWaiting (b : Bool) (j : Reg) : (s.setWaiting b).getV j = s.getV j := rfl
@[simp] theorem State.getKey_setWaiting (b : Bool) (j : Reg) : (s.setWaiting b).getKey j = s.getKey j := rfl
@[simp] theorem State.getFlag_setWaiting (b : Bool) (j : Reg) : (s.setWaiting b).getFlag j = s.getFlag j := rfl
@[simp] theorem State.getStack_setWaiting (b : Bool) (j : Fin 16) : (s.setWaiting b).getStack j = s.getStack j := rfl
@[simp] theorem State.memRead_setWaiting (b : Bool) (c : Word) : (s.setWaiting b).memRead c = s.memRead c := rfl

/-! ### setWaitReg -/

@[simp] theorem State.profile_setWaitReg (x : Reg) : (s.setWaitReg x).profile = s.profile := rfl
@[simp] theorem State.mem_setWaitReg (x : Reg) : (s.setWaitReg x).mem = s.mem := rfl
@[simp] theorem State.V_setWaitReg (x : Reg) : (s.setWaitReg x).V = s.V := rfl
@[simp] theorem State.I_setWaitReg (x : Reg) : (s.setWaitReg x).I = s.I := rfl
@[simp] theorem State.pc_setWaitReg (x : Reg) : (s.setWaitReg x).pc = s.pc := rfl
@[simp] theorem State.stack_setWaitReg (x : Reg) : (s.setWaitReg x).stack = s.stack := rfl
@[simp] theorem State.sp_setWaitReg (x : Reg) : (s.setWaitReg x).sp = s.sp := rfl
@[simp] theorem State.disp_setWaitReg (x : Reg) : (s.setWaitReg x).disp = s.disp := rfl
@[simp] theorem State.hires_setWaitReg (x : Reg) : (s.setWaitReg x).hires = s.hires := rfl
@[simp] theorem State.dispChanged_setWaitReg (x : Reg) : (s.setWaitReg x).dispChanged = s.dispChanged := rfl
@[simp] theorem State.DT_setWaitReg (x : Reg) : (s.setWaitReg x).DT = s.DT := rfl
@[simp] theorem State.ST_setWaitReg (x : Reg) : (s.setWaitReg x).ST = s.ST := rfl
@[simp] theorem State.key_setWaitReg (x : Reg) : (s.setWaitReg x).key = s.key := rfl
@[simp] theorem State.flags_setWaitReg (x : Reg) : (s.setWaitReg x).flags = s.flags := rfl
@[simp] theorem State.waiting_setWaitReg (x : Reg) : (s.setWaitReg x).waiting = s.waiting := rfl
@[simp] theorem State.waitReg_setWaitReg (x : Reg) : (s.setWaitReg x).waitReg = x := rfl
@[simp] theorem State.halted_setWaitReg (x : Reg) : (s.setWaitReg x).halted = s.halted := rfl
@[simp] theorem State.diag_setWaitReg (x : Reg) : (s.setWaitReg x).diag = s.diag := rfl
@[simp] theorem State.draws_setWaitReg (x : Reg) : (s.setWaitReg x).draws = s.draws := rfl
@[simp] theorem State.getV_setWaitReg (x : Reg) (j : Reg) : (s.setWaitReg x).getV j = s.getV j := rfl
@[simp] theorem State.getKey_setWaitReg (x : Reg) (j : Reg) : (s.setWaitReg x).getKey j = s.getKey j := rfl
@[simp] theorem State.getFlag_setWaitReg (x : Reg) (j : Reg) : (s.setWaitReg x).getFlag j = s.getFlag j := rfl
@[simp] theorem State.getStack_setWaitReg (x : Reg) (j : Fin 16) : (s.setWaitReg x).getStack j = s.getStack j := rfl
@[simp] theorem State.memRead_setWaitReg (x : Reg) (c : Word) : (s.setWaitReg x).memRead c = s.memRead c := rfl

/-! ### setKey -/

@[simp] theorem State.profile_setKey (k : Reg) (b : Bool) : (s.setKey k b).profile = s.profile := rfl
@[simp] theorem State.mem_setKey (k : Reg) (b : Bool) : (s.setKey k b).mem = s.mem := rfl
@[simp] theorem State.V_setKey (k : Reg) (b : Bool) : (s.setKey k b).V = s.V := rfl
@[simp] theorem State.I_setKey (k : Reg) (b : Bool) : (s.setKey k b).I = s.I := rfl
@[simp] theorem State.pc_setKey (k : Reg) (b : Bool) : (s.setKey k b).pc = s.pc := rfl
@[simp] theorem State.stack_setKey (k : Reg) (b : Bool) : (s.setKey k b).stack = s.stack := rfl
@[simp] theorem State.sp_setKey (k : Reg) (b : Bool) : (s.setKey k b).sp = s.sp := rfl
@[simp] theorem State.disp_setKey (k : Reg) (b : Bool) : (s.setKey k b).disp = s.disp := rfl
@[simp] theorem State.hires_setKey (k : Reg) (b : Bool) : (s.setKey k b).hires = s.hires := rfl
@[simp] theorem State.dispChanged_setKey (k : Reg) (b : Bool) : (s.setKey k b).dispChanged = s.dispChanged := rfl
@[simp] theorem State.DT_setKey (k : Reg) (b : Bool) : (s.setKey k b).DT = s.DT := rfl
@[simp] theorem State.ST_setKey (k : Reg) (b : Bool) : (s.setKey k b).ST = s.ST := rfl
@[simp] theorem State.key_setKey (k : Reg) (b : Bool) : (s.setKey k b).key = s.key.set k.val b k.isLt := rfl
@[simp] theorem State.flags_setKey (k : Reg) (b : Bool) : (s.setKey k b).flags = s.flags := rfl
@[simp] theorem State.waiting_setKey (k : Reg) (b : Bool) : (s.setKey k b).waiting = s.waiting := rfl
@[simp] theorem State.waitReg_setKey (k : Reg) (b : Bool) : (s.setKey k b).waitReg = s.waitReg := rfl
@[simp] theorem State.halted_setKey (k : Reg) (b : Bool) : (s.setKey k b).halted = s.halted := rfl
@[simp] theorem State.diag_setKey (k : Reg) (b : Bool) : (s.setKey k b).diag = s.diag := rfl
@[simp] theorem State.draws_setKey (k : Reg) (b : Bool) : (s.setKey k b).draws = s.draws := rfl
@[simp] theorem State.getV_setKey (k : Reg) (b : Bool) (j : Reg) : (s.setKey k b).getV j = s.getV j := rfl
@[simp] theorem State.getFlag_setKey (k : Reg) (b : Bool) (j : Reg) : (s.setKey k b).getFlag j = s.getFlag j := rfl
@[simp] theorem State.getStack_setKey (k : Reg) (b : Bool) (j : Fin 16) : (s.setKey k b).getStack j = s.getStack j := rfl
@[simp] theorem State.memRead_setKey (k : Reg) (b : Bool) (c : Word) : (s.setKey k b).memRead c = s.memRead c := rfl

/-! ### setFlag -/

@[simp] theorem State.profile_setFlag (f : Reg) (b : Byte) : (s.setFlag f b).profile = s.profile := rfl
@[simp] theorem State.mem_setFlag (f : Reg) (b : Byte) : (s.setFlag f b).mem = s.mem := rfl
@[simp] theorem State.V_setFlag (f : Reg) (b : Byte) : (s.setFlag f b).V = s.V := rfl
@[simp] theorem State.I_setFlag (f : Reg) (b : Byte) : (s.setFlag f b).I = s.I := rfl
@[simp] theorem State.pc_setFlag (f : Reg) (b : Byte) : (s.setFlag f b).pc = s.pc := rfl
@[simp] theorem State.stack_setFlag (f : Reg) (b : Byte) : (s.setFlag f b).stack = s.stack := rfl
@[simp] theorem State.sp_setFlag (f : Reg) (b : Byte) : (s.setFlag f b).sp = s.sp := rfl
@[simp] theorem State.disp_setFlag (f : Reg) (b : Byte) : (s.setFlag f b).disp = s.disp := rfl
@[simp] theorem State.hires_setFlag (f : Reg) (b : Byte) : (s.setFlag f b).hires = s.hires := rfl
@[simp] theorem State.dispChanged_setFlag (f : Reg) (b : Byte) : (s.setFlag f b).dispChanged = s.dispChanged := rfl
@[simp] theorem State.DT_setFlag (f : Reg) (b : Byte) : (s.setFlag f b).DT = s.DT := rfl
@[simp] theorem State.ST_setFlag (f : Reg) (b : Byte) : (s.setFlag f b).ST = s.ST := rfl
@[simp] theorem State.key_setFlag (f : Reg) (b : Byte) : (s.setFlag f b).key = s.key := rfl
@[simp] theorem State.flags_setFlag (f : Reg) (b : Byte) : (s.setFlag f b).flags = s.flags.set f.val b f.isLt := rfl
@[simp] theorem State.waiting_setFlag (f : Reg) (b : Byte) : (s.setFlag f b).waiting = s.waiting := rfl
@[simp] theorem State.waitReg_setFlag (f : Reg) (b : Byte) : (s.setFlag f b).waitReg = s.waitReg := rfl
@[simp] theorem State.halted_setFlag (f : Reg) (b : Byte) : (s.setFlag f b).halted = s.halted := rfl
@[simp] theorem State.diag_setFlag (f : Reg) (b : Byte) : (s.setFlag f b).diag = s.diag := rfl
@[simp] theorem State.draws_setFlag (f : Reg) (b : Byte) : (s.setFlag f b).draws = s.draws := rfl
@[simp] theorem State.getV_setFlag (f : Reg) (b : Byte) (j : Reg) : (s.setFlag f b).getV j = s.getV j := rfl
@[simp] theorem State.getKey_setFlag (f : Reg) (b : Byte) (j : Reg) : (s.setFlag f b).getKey j = s.getKey j := rfl
@[simp] theorem State.getStack_setFlag (f : Reg) (b : Byte) (j : Fin 16) : (s.setFlag f b).getStack j = s.getStack j := rfl
@[simp] theorem State.memRead_setFlag (f : Reg) (b : Byte) (c : Word) : (s.setFlag f b).memRead c = s.memRead c := rfl

/-! ### setDisp -/

@[simp] theorem State.profile_setDisp (d : Display) : (s.setDisp d).profile = s.profile := rfl
@[simp] theorem State.mem_setDisp (d : Display) : (s.setDisp d).mem = s.mem := rfl
@[simp] theorem State.V_setDisp (d : Display) : (s.setDisp d).V = s.V := rfl
@[simp] theorem State.I_setDisp (d : Display) : (s.setDisp d).I = s.I := rfl
@[simp] theorem State.pc_setDisp (d : Display) : (s.setDisp d).pc = s.pc := rfl
@[simp] theorem State.stack_setDisp (d : Display) : (s.setDisp d).stack = s.stack := rfl
@[simp] theorem State.sp_setDisp (d : Display) : (s.setDisp d).sp = s.sp := rfl
@[simp] theorem State.disp_setDisp (d : Display) : (s.setDisp d).disp = d := rfl
@[simp] theorem State.hires_setDisp (d : Display) : (s.setDisp d).hires = s.hires := rfl
@[simp] theorem State.dispChanged_setDisp (d : Display) : (s.setDisp d).dispChanged = true := rfl
@[simp] theorem State.DT_setDisp (d : Display) : (s.setDisp d).DT = s.DT := rfl
@[simp] theorem State.ST_setDisp (d : Display) : (s.setDisp d).ST = s.ST := rfl
@[simp] theorem State.key_setDisp (d : Display) : (s.setDisp d).key = s.key := rfl
@[simp] theorem State.flags_setDisp (d : Display) : (s.setDisp d).flags = s.flags := rfl
@[simp] theorem State.waiting_setDisp (d : Display) : (s.setDisp d).waiting = s.waiting := rfl
@[simp] theorem State.waitReg_setDisp (d : Display) : (s.setDisp d).waitReg = s.waitReg := rfl
@[simp] theorem State.halted_setDisp (d : Display) : (s.setDisp d).halted = s.halted := rfl
@[simp] theorem State.diag_setDisp (d : Display) : (s.setDisp d).diag = s.diag := rfl
@[simp] theorem State.draws_setDisp (d : Display) : (s.setDisp d).draws = s.draws := rfl
@[simp] theorem State.getV_setDisp (d : Display) (j : Reg) : (s.setDisp d).getV j = s.getV j := rfl
@[simp] theorem State.getKey_setDisp (d : Display) (j : Reg) : (s.setDisp d).getKey j = s.getKey j := rfl
@[simp] theorem State.getFlag_setDisp (d : Display) (j : Reg) : (s.setDisp d).getFlag j = s.getFlag j := rfl
@[simp] theorem State.getStack_setDisp (d : Display) (j : Fin 16) : (s.setDisp d).getStack j = s.getStack j := rfl
@[simp] theorem State.memRead_setDisp (d : Display) (c : Word) : (s.setDisp d).memRead c = s.memRead c := rfl

/-! ### setDispChanged -/

@[simp] theorem State.profile_setDispChanged (b : Bool) : (s.setDispChanged b).profile = s.profile := rfl
@[simp] theorem State.mem_setDispChanged (b : Bool) : (s.setDispChanged b).mem = s.mem := rfl
@[simp] theorem State.V_setDispChanged (b : Bool) : (s.setDispChanged b).V = s.V := rfl
@[simp] theorem State.I_setDispChanged (b : Bool) : (s.setDispChanged b).I = s.I := rfl
@[simp] theorem State.pc_setDispChanged (b : Bool) : (s.setDispChanged b).pc = s.pc := rfl
@[simp] theorem State.stack_setDispChanged (b : Bool) : (s.setDispChanged b).stack = s.stack := rfl
@[simp] theorem State.sp_setDispChanged (b : Bool) : (s.setDispChanged b).sp = s.sp := rfl
@[simp] theorem State.disp_setDispChanged (b : Bool) : (s.setDispChanged b).disp = s.disp := rfl
@[simp] theorem State.hires_setDispChanged (b : Bool) : (s.setDispChanged b).hires = s.hires := rfl
@[simp] theorem State.dispChanged_setDispChanged (b : Bool) : (s.setDispChanged b).dispChanged = b := rfl
@[simp] theorem State.DT_setDispChanged (b : Bool) : (s.setDispChanged b).DT = s.DT := rfl
@[simp] theorem State.ST_setDispChanged (b : Bool) : (s.setDispChanged b).ST = s.ST := rfl
@[simp] theorem State.key_setDispChanged (b : Bool) : (s.setDispChanged b).key = s.key := rfl
@[simp] theorem State.flags_setDispChanged (b : Bool) : (s.setDispChanged b).flags = s.flags := rfl
@[simp] theorem State.waiting_setDispChanged (b : Bool) : (s.setDispChanged b).waiting = s.waiting := rfl
@[simp] theorem State.waitReg_setDispChanged (b : Bool) : (s.setDispChanged b).waitReg = s.waitReg := rfl
@[simp] theorem State.halted_setDispChanged (b : Bool) : (s.setDispChanged b).halted = s.halted := rfl
@[simp] theorem State.diag_setDispChanged (b : Bool) : (s.setDispChanged b).diag = s.diag := rfl
@[simp] theorem State.draws_setDispChanged (b : Bool) : (s.setDispChanged b).draws = s.draws := rfl
@[simp] theorem State.getV_setDispChanged (b : Bool) (j : Reg) : (s.setDispChanged b).getV j = s.getV j := rfl
@[simp] theorem State.getKey_setDispChanged (b : Bool) (j : Reg) : (s.setDispChanged b).getKey j = s.getKey j := rfl
@[simp] theorem State.getFlag_setDispChanged (b : Bool) (j : Reg) : (s.setDispChanged b).getFlag j = s.getFlag j := rfl
@[simp] theorem State.getStack_setDispChanged (b : Bool) (j : Fin 16) : (s.setDispChanged b).getStack j = s.getStack j := rfl
@[simp] theorem State.memRead_setDispChanged (b : Bool) (c : Word) : (s.setDispChanged b).memRead c = s.memRead c := rfl

/-! ### memWrite -/

@[simp] theorem State.profile_memWrite (a : Word) (b : Byte) : (s.memWrite a b).profile = s.profile := rfl
@[simp] theorem State.mem_memWrite (a : Word) (b : Byte) : (s.memWrite a b).mem = s.mem.write (effAddr a) b := rfl
@[simp] theorem State.V_memWrite (a : Word) (b : Byte) : (s.memWrite a b).V = s.V := rfl
@[simp] theorem State.I_memWrite (a : Word) (b : Byte) : (s.memWrite a b).I = s.I := rfl
@[simp] theorem State.pc_memWrite (a : Word) (b : Byte) : (s.memWrite a b).pc = s.pc := rfl
@[simp] theorem State.stack_memWrite (a : Word) (b : Byte) : (s.memWrite a b).stack = s.stack := rfl
@[simp] theorem State.sp_memWrite (a : Word) (b : Byte) : (s.memWrite a b).sp = s.sp := rfl
@[simp] theorem State.disp_memWrite (a : Word) (b : Byte) : (s.memWrite a b).disp = s.disp := rfl
@[simp] theorem State.hires_memWrite (a : Word) (b : Byte) : (s.memWrite a b).hires = s.hires := rfl
@[simp] theorem State.dispChanged_memWrite (a : Word) (b : Byte) : (s.memWrite a b).dispChanged = s.dispChanged := rfl
@[simp] theorem State.DT_memWrite (a : Word) (b : Byte) : (s.memWrite a b).DT = s.DT := rfl
@[simp] theorem State.ST_memWrite (a : Word) (b : Byte) : (s.memWrite a b).ST = s.ST := rfl
@[simp] theorem State.key_memWrite (a : Word) (b : Byte) : (s.memWrite a b).key = s.key := rfl
@[simp] theorem State.flags_memWrite (a : Word) (b : Byte) : (s.memWrite a b).flags = s.flags := rfl
@[simp] theorem State.waiting_memWrite (a : Word) (b : Byte) : (s.memWrite a b).waiting = s.waiting := rfl
@[simp] theorem State.waitReg_memWrite (a : Word) (b : Byte) : (s.memWrite a b).waitReg = s.waitReg := rfl
@[simp] theorem State.halted_memWrite (a : Word) (b : Byte) : (s.memWrite a b).halted = s.halted := rfl
@[simp] theorem State.diag_memWrite (a : Word) (b : Byte) : (s.memWrite a b).diag = s.diag := rfl
@[simp] theorem State.draws_memWrite (a : Word) (b : Byte) : (s.memWrite a b).draws = s.draws := rfl
@[simp] theorem State.getV_memWrite (a : Word) (b : Byte) (j : Reg) : (s.memWrite a b).getV j = s.getV j := rfl
@[simp] theorem State.getKey_memWrite (a : Word) (b : Byte) (j : Reg) : (s.memWrite a b).getKey j = s.getKey j := rfl
@[simp] theorem State.getFlag_memWrite (a : Word) (b : Byte) (j : Reg) : (s.memWrite a b).getFlag j = s.getFlag j := rfl
@[simp] theorem State.getStack_memWrite (a : Word) (b : Byte) (j : Fin 16) : (s.memWrite a b).getStack j = s.getStack j := rfl

/-! ### report -/

@[simp] theorem State.profile_report (d : Diagnostic) : (s.report d).profile = s.profile := rfl
@[simp] theorem State.mem_report (d : Diagnostic) : (s.report d).mem = s.mem := rfl
@[simp] theorem State.V_report (d : Diagnostic) : (s.report d).V = s.V := rfl
@[simp] theorem State.I_report (d : Diagnostic) : (s.report d).I = s.I := rfl
@[simp] theorem State.pc_report (d : Diagnostic) : (s.report d).pc = s.pc := rfl
@[simp] theorem State.stack_report (d : Diagnostic) : (s.report d).stack = s.stack := rfl
@[simp] theorem State.sp_report (d : Diagnostic) : (s.report d).sp = s.sp := rfl
@[simp] theorem State.disp_report (d : Diagnostic) : (s.report d).disp = s.disp := rfl
@[simp] theorem State.hires_report (d : Diagnostic) : (s.report d).hires = s.hires := rfl
@[simp] theorem State.dispChanged_report (d : Diagnostic) : (s.report d).dispChanged = s.dispChanged := rfl
@[simp] theorem State.DT_report (d : Diagnostic) : (s.report d).DT = s.DT := rfl
@[simp] theorem State.ST_report (d : Diagnostic) : (s.report d).ST = s.ST := rfl
@[simp] theorem State.key_report (d : Diagnostic) : (s.report d).key = s.key := rfl
@[simp] theorem State.flags_report (d : Diagnostic) : (s.report d).flags = s.flags := rfl
@[simp] theorem State.waiting_report (d : Diagnostic) : (s.report d).waiting = s.waiting := rfl
@[simp] theorem State.waitReg_report (d : Diagnostic) : (s.report d).waitReg = s.waitReg := rfl
@[simp] theorem State.halted_report (d : Diagnostic) : (s.report d).halted = s.halted := rfl
@[simp] theorem State.diag_report (d : Diagnostic) : (s.report d).diag = s.diag ++ [d] := rfl
@[simp] theorem State.draws_report (d : Diagnostic) : (s.report d).draws = s.draws := rfl
@[simp] theorem State.getV_report (d : Diagnostic) (j : Reg) : (s.report d).getV j = s.getV j := rfl
@[simp] theorem State.getKey_report (d : Diagnostic) (j : Reg) : (s.report d).getKey j = s.getKey j := rfl
@[simp] theorem State.getFlag_report (d : Diagnostic) (j : Reg) : (s.report d).getFlag j = s.getFlag j := rfl
@[simp] theorem State.getStack_report (d : Diagnostic) (j : Fin 16) : (s.report d).getStack j = s.getStack j := rfl
@[simp] theorem State.memRead_report (d : Diagnostic) (c : Word) : (s.report d).memRead c = s.memRead c := rfl

/-! ### pushPc -/

@[simp] theorem State.profile_pushPc (h : s.sp.val < 16) : (s.pushPc h).profile = s.profile := rfl
@[simp] theorem State.mem_pushPc (h : s.sp.val < 16) : (s.pushPc h).mem = s.mem := rfl
@[simp] theorem State.V_pushPc (h : s.sp.val < 16) : (s.pushPc h).V = s.V := rfl
@[simp] theorem State.I_pushPc (h : s.sp.val < 16) : (s.pushPc h).I = s.I := rfl
@[simp] theorem State.pc_pushPc (h : s.sp.val < 16) : (s.pushPc h).pc = s.pc := rfl
@[simp] theorem State.stack_pushPc (h : s.sp.val < 16) : (s.pushPc h).stack = s.stack.set s.sp.val s.pc h := rfl
@[simp] theorem State.sp_pushPc (h : s.sp.val < 16) : (s.pushPc h).sp = ⟨s.sp.val + 1, by omega⟩ := rfl
@[simp] theorem State.disp_pushPc (h : s.sp.val < 16) : (s.pushPc h).disp = s.disp := rfl
@[simp] theorem State.hires_pushPc (h : s.sp.val < 16) : (s.pushPc h).hires = s.hires := rfl
@[simp] theorem State.dispChanged_pushPc (h : s.sp.val < 16) : (s.pushPc h).dispChanged = s.dispChanged := rfl
@[simp] theorem State.DT_pushPc (h : s.sp.val < 16) : (s.pushPc h).DT = s.DT := rfl
@[simp] theorem State.ST_pushPc (h : s.sp.val < 16) : (s.pushPc h).ST = s.ST := rfl
@[simp] theorem State.key_pushPc (h : s.sp.val < 16) : (s.pushPc h).key = s.key := rfl
@[simp] theorem State.flags_pushPc (h : s.sp.val < 16) : (s.pushPc h).flags = s.flags := rfl
@[simp] theorem State.waiting_pushPc (h : s.sp.val < 16) : (s.pushPc h).waiting = s.waiting := rfl
@[simp] theorem State.waitReg_pushPc (h : s.sp.val < 16) : (s.pushPc h).waitReg = s.waitReg := rfl
@[simp] theorem State.halted_pushPc (h : s.sp.val < 16) : (s.pushPc h).halted = s.halted := rfl
@[simp] theorem State.diag_pushPc (h : s.sp.val < 16) : (s.pushPc h).diag = s.diag := rfl
@[simp] theorem State.draws_pushPc (h : s.sp.val < 16) : (s.pushPc h).draws = s.draws := rfl
@[simp] theorem State.getV_pushPc (h : s.sp.val < 16) (j : Reg) : (s.pushPc h).getV j = s.getV j := rfl
@[simp] theorem State.getKey_pushPc (h : s.sp.val < 16) (j : Reg) : (s.pushPc h).getKey j = s.getKey j := rfl
@[simp] theorem State.getFlag_pushPc (h : s.sp.val < 16) (j : Reg) : (s.pushPc h).getFlag j = s.getFlag j := rfl
@[simp] theorem State.memRead_pushPc (h : s.sp.val < 16) (c : Word) : (s.pushPc h).memRead c = s.memRead c := rfl

/-! ### popPc -/

@[simp] theorem State.profile_popPc (h : 0 < s.sp.val) : (s.popPc h).profile = s.profile := rfl
@[simp] theorem State.mem_popPc (h : 0 < s.sp.val) : (s.popPc h).mem = s.mem := rfl
@[simp] theorem State.V_popPc (h : 0 < s.sp.val) : (s.popPc h).V = s.V := rfl
@[simp] theorem State.I_popPc (h : 0 < s.sp.val) : (s.popPc h).I = s.I := rfl
@[simp] theorem State.pc_popPc (h : 0 < s.sp.val) : (s.popPc h).pc = s.stack[s.sp.val - 1]'(by omega) := rfl
@[simp] theorem State.stack_popPc (h : 0 < s.sp.val) : (s.popPc h).stack = s.stack := rfl
@[simp] theorem State.sp_popPc (h : 0 < s.sp.val) : (s.popPc h).sp = ⟨s.sp.val - 1, by omega⟩ := rfl
@[simp] theorem State.disp_popPc (h : 0 < s.sp.val) : (s.popPc h).disp = s.disp := rfl
@[simp] theorem State.hires_popPc (h : 0 < s.sp.val) : (s.popPc h).hires = s.hires := rfl
@[simp] theorem State.dispChanged_popPc (h : 0 < s.sp.val) : (s.popPc h).dispChanged = s.dispChanged := rfl
@[simp] theorem State.DT_popPc (h : 0 < s.sp.val) : (s.popPc h).DT = s.DT := rfl
@[simp] theorem State.ST_popPc (h : 0 < s.sp.val) : (s.popPc h).ST = s.ST := rfl
@[simp] theorem State.key_popPc (h : 0 < s.sp.val) : (s.popPc h).key = s.key := rfl
@[simp] theorem State.flags_popPc (h : 0 < s.sp.val) : (s.popPc h).flags = s.flags := rfl
@[simp] theorem State.waiting_popPc (h : 0 < s.sp.val) : (s.popPc h).waiting = s.waiting := rfl
@[simp] theorem State.waitReg_popPc (h : 0 < s.sp.val) : (s.popPc h).waitReg = s.waitReg := rfl
@[simp] theorem State.halted_popPc (h : 0 < s.sp.val) : (s.popPc h).halted = s.halted := rfl
@[simp] theorem State.diag_popPc (h : 0 < s.sp.val) : (s.popPc h).diag = s.diag := rfl
@[simp] theorem State.draws_popPc (h : 0 < s.sp.val) : (s.popPc h).draws = s.draws := rfl
@[simp] theorem State.getV_popPc (h : 0 < s.sp.val) (j : Reg) : (s.popPc h).getV j = s.getV j := rfl
@[simp] theorem State.getKey_popPc (h : 0 < s.sp.val) (j : Reg) : (s.popPc h).getKey j = s.getKey j := rfl
@[simp] theorem State.getFlag_popPc (h : 0 < s.sp.val) (j : Reg) : (s.popPc h).getFlag j = s.getFlag j := rfl
@[simp] theorem State.getStack_popPc (h : 0 < s.sp.val) (j : Fin 16) : (s.popPc h).getStack j = s.getStack j := rfl
@[simp] theorem State.memRead_popPc (h : 0 < s.sp.val) (c : Word) : (s.popPc h).memRead c = s.memRead c := rfl

/-! ### countDraw -/

@[simp] theorem State.profile_countDraw : (s.countDraw).profile = s.profile := rfl
@[simp] theorem State.mem_countDraw : (s.countDraw).mem = s.mem := rfl
@[simp] theorem State.V_countDraw : (s.countDraw).V = s.V := rfl
@[simp] theorem State.I_countDraw : (s.countDraw).I = s.I := rfl
@[simp] theorem State.pc_countDraw : (s.countDraw).pc = s.pc := rfl
@[simp] theorem State.stack_countDraw : (s.countDraw).stack = s.stack := rfl
@[simp] theorem State.sp_countDraw : (s.countDraw).sp = s.sp := rfl
@[simp] theorem State.disp_countDraw : (s.countDraw).disp = s.disp := rfl
@[simp] theorem State.hires_countDraw : (s.countDraw).hires = s.hires := rfl
@[simp] theorem State.dispChanged_countDraw : (s.countDraw).dispChanged = s.dispChanged := rfl
@[simp] theorem State.DT_countDraw : (s.countDraw).DT = s.DT := rfl
@[simp] theorem State.ST_countDraw : (s.countDraw).ST = s.ST := rfl
@[simp] theorem State.key_countDraw : (s.countDraw).key = s.key := rfl
@[simp] theorem State.flags_countDraw : (s.countDraw).flags = s.flags := rfl
@[simp] theorem State.waiting_countDraw : (s.countDraw).waiting = s.waiting := rfl
@[simp] theorem State.waitReg_countDraw : (s.countDraw).waitReg = s.waitReg := rfl
@[simp] theorem State.halted_countDraw : (s.countDraw).halted = s.halted := rfl
@[simp] theorem State.diag_countDraw : (s.countDraw).diag = s.diag := rfl
@[simp] theorem State.draws_countDraw : (s.countDraw).draws = s.draws + 1 := rfl
@[simp] theorem State.getV_countDraw (j : Reg) : (s.countDraw).getV j = s.getV j := rfl
@[simp] theorem State.getKey_countDraw (j : Reg) : (s.countDraw).getKey j = s.getKey j := rfl
@[simp] theorem State.getFlag_countDraw (j : Reg) : (s.countDraw).getFlag j = s.getFlag j := rfl
@[simp] theorem State.getStack_countDraw (j : Fin 16) : (s.countDraw).getStack j = s.getStack j := rfl
@[simp] theorem State.memRead_countDraw (c : Word) : (s.countDraw).memRead c = s.memRead c := rfl

end Sys2Proof.Machine
end

