-- ==== Sys2Proof/Laws/Ops.lean ====
section
/-! SUPPORT. One lemma per shared operation over registers, keys, flags storage, the call stack and block transfers: what it
gives, and what it leaves. -/

namespace Sys2Proof.Machine

/-! ### Register files -/

theorem State.getV_setV (s : State) (i j : Reg) (b : Byte) :
    (s.setV i b).getV j = if j = i then b else s.getV j := by
  simp only [State.getV, State.setV, Vector.getElem_set, Fin.ext_iff, eq_comm]

@[simp] theorem State.getV_setV_same (s : State) (i : Reg) (b : Byte) : (s.setV i b).getV i = b := by
  simp [State.getV_setV]

theorem State.getV_setV_ne (s : State) {i j : Reg} (b : Byte) (h : j ≠ i) : (s.setV i b).getV j = s.getV j := by
  simp [State.getV_setV, h]

theorem State.getKey_setKey (s : State) (i j : Reg) (b : Bool) :
    (s.setKey i b).getKey j = if j = i then b else s.getKey j := by
  simp only [State.getKey, State.setKey, Vector.getElem_set, Fin.ext_iff, eq_comm]

theorem State.getFlag_setFlag (s : State) (i j : Reg) (b : Byte) :
    (s.setFlag i b).getFlag j = if j = i then b else s.getFlag j := by
  simp only [State.getFlag, State.setFlag, Vector.getElem_set, Fin.ext_iff, eq_comm]

/-- The result first, the flag last (41_arithmetic.md R160). -/
theorem State.getV_setResultFlag (s : State) (x j : Reg) (r f : Byte) :
    (s.setResultFlag x r f).getV j = if j = VF then f else if j = x then r else s.getV j := by
  simp only [State.setResultFlag, State.getV_setV]

/-- The register file is all a result-and-flag write changes. -/
theorem State.setResultFlag_eq (s : State) (x : Reg) (r f : Byte) :
    s.setResultFlag x r f = { s with V := (s.setResultFlag x r f).V } := rfl

/-- Two register files with equal registers are equal. -/
theorem V_ext {v w : Vector Byte 16} (h : ∀ j : Reg, v[j.val] = w[j.val]) : v = w :=
  Vector.ext fun j hj => h ⟨j, hj⟩

/-! ### Call stack -/

theorem State.getStack_pushPc (s : State) (h : s.sp.val < 16) (j : Fin 16) :
    (s.pushPc h).getStack j = if j.val = s.sp.val then s.pc else s.getStack j := by
  simp only [State.getStack, State.pushPc, Vector.getElem_set, eq_comm]

/-! ### Program counter -/

theorem State.skipIf_pc (s : State) (c : Bool) : (s.skipIf c).pc = if c then s.pc + 2 else s.pc := by
  cases c <;> rfl

theorem State.skipIf_eq (s : State) (c : Bool) : s.skipIf c = { s with pc := (s.skipIf c).pc } := by
  cases c <;> rfl

@[simp] theorem State.ipc_advancePc (s : State) : s.advancePc.ipc = s.pc := by
  simp [State.ipc]

/-! ### Addresses from I -/

theorem State.effAddr_indexPlus (s : State) (k : Nat) : effAddr (s.indexPlus k) = (s.I.toNat + k) % 4096 := by
  simp only [effAddr, State.indexPlus, BitVec.toNat_add, BitVec.toNat_ofNat]
  omega

/-- The addresses of a transfer of at most 16 bytes are all different. -/
theorem State.effAddr_indexPlus_inj (s : State) {i j : Reg}
    (h : effAddr (s.indexPlus i.val) = effAddr (s.indexPlus j.val)) : i = j := by
  rw [State.effAddr_indexPlus, State.effAddr_indexPlus] at h
  have := i.isLt
  have := j.isLt
  apply Fin.ext
  omega

/-! ### Block transfers -/

theorem mem_regsUpTo (j x : Reg) : j ∈ regsUpTo x ↔ j ≤ x := by
  revert j x; decide

theorem State.loadRegs_eq (s : State) (rs : List Reg) : s.loadRegs rs = { s with V := (s.loadRegs rs).V } := by
  suffices h : ∀ t : State, (rs.foldl (fun t i => t.setV i (s.memRead (s.indexPlus i.val))) t) =
      { t with V := (rs.foldl (fun t i => t.setV i (s.memRead (s.indexPlus i.val))) t).V } from h s
  induction rs with
  | nil => intro t; rfl
  | cons r rs ih => intro t; exact ih _

/-- A load gives each listed register the byte at its address, and no other (43_memory_timer_input.md R257). -/
theorem State.getV_loadRegs (s : State) (rs : List Reg) (j : Reg) :
    (s.loadRegs rs).getV j = if j ∈ rs then s.memRead (s.indexPlus j.val) else s.getV j := by
  suffices h : ∀ t : State, (rs.foldl (fun t i => t.setV i (s.memRead (s.indexPlus i.val))) t).getV j =
      if j ∈ rs then s.memRead (s.indexPlus j.val) else t.getV j from h s
  induction rs with
  | nil => intro t; simp
  | cons r rs ih =>
    intro t
    rw [List.foldl_cons, ih, State.getV_setV]
    by_cases h1 : j ∈ rs <;> by_cases h2 : j = r <;> simp [h1, h2]

theorem State.restoreFlags_eq (s : State) (rs : List Reg) :
    s.restoreFlags rs = { s with V := (s.restoreFlags rs).V } := by
  suffices h : ∀ t : State, (rs.foldl (fun t i => t.setV i (s.getFlag i)) t) =
      { t with V := (rs.foldl (fun t i => t.setV i (s.getFlag i)) t).V } from h s
  induction rs with
  | nil => intro t; rfl
  | cons r rs ih => intro t; exact ih _

/-- Restoring from flags storage (43_memory_timer_input.md R263). -/
theorem State.getV_restoreFlags (s : State) (rs : List Reg) (j : Reg) :
    (s.restoreFlags rs).getV j = if j ∈ rs then s.getFlag j else s.getV j := by
  suffices h : ∀ t : State, (rs.foldl (fun t i => t.setV i (s.getFlag i)) t).getV j =
      if j ∈ rs then s.getFlag j else t.getV j from h s
  induction rs with
  | nil => intro t; simp
  | cons r rs ih =>
    intro t
    rw [List.foldl_cons, ih, State.getV_setV]
    by_cases h1 : j ∈ rs <;> by_cases h2 : j = r <;> simp [h1, h2]

theorem State.saveFlags_eq (s : State) (rs : List Reg) :
    s.saveFlags rs = { s with flags := (s.saveFlags rs).flags } := by
  suffices h : ∀ t : State, (rs.foldl (fun t i => t.setFlag i (s.getV i)) t) =
      { t with flags := (rs.foldl (fun t i => t.setFlag i (s.getV i)) t).flags } from h s
  induction rs with
  | nil => intro t; rfl
  | cons r rs ih => intro t; exact ih _

/-- Saving to flags storage (43_memory_timer_input.md R262). -/
theorem State.getFlag_saveFlags (s : State) (rs : List Reg) (j : Reg) :
    (s.saveFlags rs).getFlag j = if j ∈ rs then s.getV j else s.getFlag j := by
  suffices h : ∀ t : State, (rs.foldl (fun t i => t.setFlag i (s.getV i)) t).getFlag j =
      if j ∈ rs then s.getV j else t.getFlag j from h s
  induction rs with
  | nil => intro t; simp
  | cons r rs ih =>
    intro t
    rw [List.foldl_cons, ih, State.getFlag_setFlag]
    by_cases h1 : j ∈ rs <;> by_cases h2 : j = r <;> simp [h1, h2]

theorem State.storeRegs_eq (s : State) (rs : List Reg) :
    s.storeRegs rs = { s with mem := (s.storeRegs rs).mem } := by
  suffices h : ∀ t : State, (rs.foldl (fun t i => t.memWrite (s.indexPlus i.val) (s.getV i)) t) =
      { t with mem := (rs.foldl (fun t i => t.memWrite (s.indexPlus i.val) (s.getV i)) t).mem } from h s
  induction rs with
  | nil => intro t; rfl
  | cons r rs ih => intro t; exact ih _

theorem State.wf_storeRegs (s : State) (rs : List Reg) (hs : s.mem.wf = true) : (s.storeRegs rs).mem.wf = true := by
  suffices h : ∀ t : State, t.mem.wf = true →
      (rs.foldl (fun t i => t.memWrite (s.indexPlus i.val) (s.getV i)) t).mem.wf = true from h s hs
  induction rs with
  | nil => exact fun t h => h
  | cons r rs ih => exact fun t h => ih _ (State.wf_memWrite _ _ _ h)

/-- A store leaves every address that is not one of its own. -/
theorem State.read_storeRegs_other (s : State) (rs : List Reg) (a : Nat) (hs : s.mem.wf = true)
    (ha : ∀ i ∈ rs, effAddr (s.indexPlus i.val) ≠ a) : (s.storeRegs rs).mem.read a = s.mem.read a := by
  suffices h : ∀ t : State, t.mem.wf = true →
      (rs.foldl (fun t i => t.memWrite (s.indexPlus i.val) (s.getV i)) t).mem.read a = t.mem.read a from h s hs
  induction rs with
  | nil => intro t _; rfl
  | cons r rs ih =>
    intro t ht
    rw [List.foldl_cons, ih (fun i hi => ha i (by simp [hi])) _ (State.wf_memWrite _ _ _ ht), State.mem_memWrite,
      Memory.read_write _ _ _ _ ht, if_neg (fun he => ha r (by simp) he.symm)]

/-- A store puts each listed register at its own address (43_memory_timer_input.md R256). -/
theorem State.read_storeRegs_own (s : State) (rs : List Reg) (j : Reg) (hs : s.mem.wf = true) (hj : j ∈ rs) :
    (s.storeRegs rs).mem.read (effAddr (s.indexPlus j.val)) = s.getV j := by
  suffices h : ∀ t : State, t.mem.wf = true → (j ∈ rs ∨ t.mem.read (effAddr (s.indexPlus j.val)) = s.getV j) →
      (rs.foldl (fun t i => t.memWrite (s.indexPlus i.val) (s.getV i)) t).mem.read (effAddr (s.indexPlus j.val)) = s.getV j
    from h s hs (Or.inl hj)
  clear hj
  induction rs with
  | nil => intro t _ h; simpa using h
  | cons r rs ih =>
    intro t ht h
    refine ih _ (State.wf_memWrite _ _ _ ht) ?_
    rw [State.mem_memWrite, Memory.read_write _ _ _ _ ht]
    by_cases hr : j = r
    · subst hr; simp
    · refine h.imp (fun h => by simpa [hr] using h) fun h => ?_
      rw [if_neg (fun he => hr (s.effAddr_indexPlus_inj he)), h]

end Sys2Proof.Machine
end

