-- ==== Sys2Proof/Laws/PerInstr.lean ====
section
/-! SUPPORT. A law per instruction: the word the encoder writes has, in every fixed field of its row of
spec/opcode_table.json, the value the table gives. -/

namespace Sys2Proof.Laws

/-- A fixed field of a row: its lowest bit, its width and its value. -/
structure FixedField where
  lo : Nat
  width : Nat
  value : Nat
  deriving DecidableEq, Repr

/-- The fixed fields of an instruction's row of spec/opcode_table.json. -/
def fixedFields : Instr → List FixedField
  | .cls => [⟨0, 16, 0xE0⟩]
  | .ret => [⟨0, 16, 0xEE⟩]
  | .scd _ => [⟨4, 12, 0xC⟩]
  | .scr => [⟨0, 16, 0xFB⟩]
  | .scl => [⟨0, 16, 0xFC⟩]
  | .exit => [⟨0, 16, 0xFD⟩]
  | .low => [⟨0, 16, 0xFE⟩]
  | .high => [⟨0, 16, 0xFF⟩]
  | .jp _ => [⟨12, 4, 0x1⟩]
  | .call _ => [⟨12, 4, 0x2⟩]
  | .seImm _ _ => [⟨12, 4, 0x3⟩]
  | .sneImm _ _ => [⟨12, 4, 0x4⟩]
  | .seReg _ _ => [⟨12, 4, 0x5⟩]
  | .ldImm _ _ => [⟨12, 4, 0x6⟩]
  | .addImm _ _ => [⟨12, 4, 0x7⟩]
  | .ldReg _ _ => [⟨0, 4, 0x0⟩, ⟨12, 4, 0x8⟩]
  | .orReg _ _ => [⟨0, 4, 0x1⟩, ⟨12, 4, 0x8⟩]
  | .andReg _ _ => [⟨0, 4, 0x2⟩, ⟨12, 4, 0x8⟩]
  | .xorReg _ _ => [⟨0, 4, 0x3⟩, ⟨12, 4, 0x8⟩]
  | .addReg _ _ => [⟨0, 4, 0x4⟩, ⟨12, 4, 0x8⟩]
  | .subReg _ _ => [⟨0, 4, 0x5⟩, ⟨12, 4, 0x8⟩]
  | .shr _ _ => [⟨0, 4, 0x6⟩, ⟨12, 4, 0x8⟩]
  | .subnReg _ _ => [⟨0, 4, 0x7⟩, ⟨12, 4, 0x8⟩]
  | .shl _ _ => [⟨0, 4, 0xE⟩, ⟨12, 4, 0x8⟩]
  | .sneReg _ _ => [⟨12, 4, 0x9⟩]
  | .ldI _ => [⟨12, 4, 0xA⟩]
  | .jpOff _ => [⟨12, 4, 0xB⟩]
  | .rnd _ _ => [⟨12, 4, 0xC⟩]
  | .drwBig _ _ => [⟨0, 4, 0x0⟩, ⟨12, 4, 0xD⟩]
  | .drw _ _ _ => [⟨12, 4, 0xD⟩]
  | .skp _ => [⟨0, 8, 0x9E⟩, ⟨12, 4, 0xE⟩]
  | .sknp _ => [⟨0, 8, 0xA1⟩, ⟨12, 4, 0xE⟩]
  | .ldVxDT _ => [⟨0, 8, 0x7⟩, ⟨12, 4, 0xF⟩]
  | .ldVxK _ => [⟨0, 8, 0xA⟩, ⟨12, 4, 0xF⟩]
  | .ldDTVx _ => [⟨0, 8, 0x15⟩, ⟨12, 4, 0xF⟩]
  | .ldSTVx _ => [⟨0, 8, 0x18⟩, ⟨12, 4, 0xF⟩]
  | .addI _ => [⟨0, 8, 0x1E⟩, ⟨12, 4, 0xF⟩]
  | .ldF _ => [⟨0, 8, 0x29⟩, ⟨12, 4, 0xF⟩]
  | .ldHF _ => [⟨0, 8, 0x30⟩, ⟨12, 4, 0xF⟩]
  | .ldB _ => [⟨0, 8, 0x33⟩, ⟨12, 4, 0xF⟩]
  | .ldMemVx _ => [⟨0, 8, 0x55⟩, ⟨12, 4, 0xF⟩]
  | .ldVxMem _ => [⟨0, 8, 0x65⟩, ⟨12, 4, 0xF⟩]
  | .ldRVx _ => [⟨0, 8, 0x75⟩, ⟨12, 4, 0xF⟩]
  | .ldVxR _ => [⟨0, 8, 0x85⟩, ⟨12, 4, 0xF⟩]

/-- The encoder's word has its row's fixed fields. -/
abbrev TableRow.Statement (i : Instr) : Prop :=
  ∀ f ∈ fixedFields i, ((encode i).extractLsb' f.lo f.width).toNat = f.value

theorem TableRow.cls : TableRow.Statement .cls := by decide
theorem TableRow.ret : TableRow.Statement .ret := by decide
theorem TableRow.scd (n : Nibble) : TableRow.Statement (.scd n) :=
  List.forall_mem_singleton.2 (congrArg BitVec.toNat (highField_formatS _))
theorem TableRow.scr : TableRow.Statement .scr := by decide
theorem TableRow.scl : TableRow.Statement .scl := by decide
theorem TableRow.exit : TableRow.Statement .exit := by decide
theorem TableRow.low : TableRow.Statement .low := by decide
theorem TableRow.high : TableRow.Statement .high := by decide
theorem TableRow.jp (nnn : Addr) : TableRow.Statement (.jp nnn) :=
  List.forall_mem_singleton.2 (congrArg BitVec.toNat (opField_formatA _ _))
theorem TableRow.call (nnn : Addr) : TableRow.Statement (.call nnn) :=
  List.forall_mem_singleton.2 (congrArg BitVec.toNat (opField_formatA _ _))
theorem TableRow.seImm (x : Reg) (nn : Byte) : TableRow.Statement (.seImm x nn) :=
  List.forall_mem_singleton.2 (congrArg BitVec.toNat (opField_formatXB _ _ _))
theorem TableRow.sneImm (x : Reg) (nn : Byte) : TableRow.Statement (.sneImm x nn) :=
  List.forall_mem_singleton.2 (congrArg BitVec.toNat (opField_formatXB _ _ _))
theorem TableRow.seReg (x y : Reg) : TableRow.Statement (.seReg x y) :=
  List.forall_mem_singleton.2 (congrArg BitVec.toNat (opField_formatXY _ _ _ _))
theorem TableRow.ldImm (x : Reg) (nn : Byte) : TableRow.Statement (.ldImm x nn) :=
  List.forall_mem_singleton.2 (congrArg BitVec.toNat (opField_formatXB _ _ _))
theorem TableRow.addImm (x : Reg) (nn : Byte) : TableRow.Statement (.addImm x nn) :=
  List.forall_mem_singleton.2 (congrArg BitVec.toNat (opField_formatXB _ _ _))
theorem TableRow.ldReg (x y : Reg) : TableRow.Statement (.ldReg x y) :=
  List.forall_mem_cons.2 ⟨congrArg BitVec.toNat (nField_formatXY _ _ _ _), List.forall_mem_singleton.2 (congrArg BitVec.toNat (opField_formatXY _ _ _ _))⟩
theorem TableRow.orReg (x y : Reg) : TableRow.Statement (.orReg x y) :=
  List.forall_mem_cons.2 ⟨congrArg BitVec.toNat (nField_formatXY _ _ _ _), List.forall_mem_singleton.2 (congrArg BitVec.toNat (opField_formatXY _ _ _ _))⟩
theorem TableRow.andReg (x y : Reg) : TableRow.Statement (.andReg x y) :=
  List.forall_mem_cons.2 ⟨congrArg BitVec.toNat (nField_formatXY _ _ _ _), List.forall_mem_singleton.2 (congrArg BitVec.toNat (opField_formatXY _ _ _ _))⟩
theorem TableRow.xorReg (x y : Reg) : TableRow.Statement (.xorReg x y) :=
  List.forall_mem_cons.2 ⟨congrArg BitVec.toNat (nField_formatXY _ _ _ _), List.forall_mem_singleton.2 (congrArg BitVec.toNat (opField_formatXY _ _ _ _))⟩
theorem TableRow.addReg (x y : Reg) : TableRow.Statement (.addReg x y) :=
  List.forall_mem_cons.2 ⟨congrArg BitVec.toNat (nField_formatXY _ _ _ _), List.forall_mem_singleton.2 (congrArg BitVec.toNat (opField_formatXY _ _ _ _))⟩
theorem TableRow.subReg (x y : Reg) : TableRow.Statement (.subReg x y) :=
  List.forall_mem_cons.2 ⟨congrArg BitVec.toNat (nField_formatXY _ _ _ _), List.forall_mem_singleton.2 (congrArg BitVec.toNat (opField_formatXY _ _ _ _))⟩
theorem TableRow.shr (x y : Reg) : TableRow.Statement (.shr x y) :=
  List.forall_mem_cons.2 ⟨congrArg BitVec.toNat (nField_formatXY _ _ _ _), List.forall_mem_singleton.2 (congrArg BitVec.toNat (opField_formatXY _ _ _ _))⟩
theorem TableRow.subnReg (x y : Reg) : TableRow.Statement (.subnReg x y) :=
  List.forall_mem_cons.2 ⟨congrArg BitVec.toNat (nField_formatXY _ _ _ _), List.forall_mem_singleton.2 (congrArg BitVec.toNat (opField_formatXY _ _ _ _))⟩
theorem TableRow.shl (x y : Reg) : TableRow.Statement (.shl x y) :=
  List.forall_mem_cons.2 ⟨congrArg BitVec.toNat (nField_formatXY _ _ _ _), List.forall_mem_singleton.2 (congrArg BitVec.toNat (opField_formatXY _ _ _ _))⟩
theorem TableRow.sneReg (x y : Reg) : TableRow.Statement (.sneReg x y) :=
  List.forall_mem_singleton.2 (congrArg BitVec.toNat (opField_formatXY _ _ _ _))
theorem TableRow.ldI (nnn : Addr) : TableRow.Statement (.ldI nnn) :=
  List.forall_mem_singleton.2 (congrArg BitVec.toNat (opField_formatA _ _))
theorem TableRow.jpOff (nnn : Addr) : TableRow.Statement (.jpOff nnn) :=
  List.forall_mem_singleton.2 (congrArg BitVec.toNat (opField_formatA _ _))
theorem TableRow.rnd (x : Reg) (nn : Byte) : TableRow.Statement (.rnd x nn) :=
  List.forall_mem_singleton.2 (congrArg BitVec.toNat (opField_formatXB _ _ _))
theorem TableRow.drwBig (x y : Reg) : TableRow.Statement (.drwBig x y) :=
  List.forall_mem_cons.2 ⟨congrArg BitVec.toNat (nField_formatXY _ _ _ _), List.forall_mem_singleton.2 (congrArg BitVec.toNat (opField_formatXY _ _ _ _))⟩
theorem TableRow.drw (x y : Reg) (n : Nibble) : TableRow.Statement (.drw x y n) :=
  List.forall_mem_singleton.2 (congrArg BitVec.toNat (opField_formatXY _ _ _ _))
theorem TableRow.skp (x : Reg) : TableRow.Statement (.skp x) :=
  List.forall_mem_cons.2 ⟨congrArg BitVec.toNat (nnField_formatXB _ _ _), List.forall_mem_singleton.2 (congrArg BitVec.toNat (opField_formatXB _ _ _))⟩
theorem TableRow.sknp (x : Reg) : TableRow.Statement (.sknp x) :=
  List.forall_mem_cons.2 ⟨congrArg BitVec.toNat (nnField_formatXB _ _ _), List.forall_mem_singleton.2 (congrArg BitVec.toNat (opField_formatXB _ _ _))⟩
theorem TableRow.ldVxDT (x : Reg) : TableRow.Statement (.ldVxDT x) :=
  List.forall_mem_cons.2 ⟨congrArg BitVec.toNat (nnField_formatXB _ _ _), List.forall_mem_singleton.2 (congrArg BitVec.toNat (opField_formatXB _ _ _))⟩
theorem TableRow.ldVxK (x : Reg) : TableRow.Statement (.ldVxK x) :=
  List.forall_mem_cons.2 ⟨congrArg BitVec.toNat (nnField_formatXB _ _ _), List.forall_mem_singleton.2 (congrArg BitVec.toNat (opField_formatXB _ _ _))⟩
theorem TableRow.ldDTVx (x : Reg) : TableRow.Statement (.ldDTVx x) :=
  List.forall_mem_cons.2 ⟨congrArg BitVec.toNat (nnField_formatXB _ _ _), List.forall_mem_singleton.2 (congrArg BitVec.toNat (opField_formatXB _ _ _))⟩
theorem TableRow.ldSTVx (x : Reg) : TableRow.Statement (.ldSTVx x) :=
  List.forall_mem_cons.2 ⟨congrArg BitVec.toNat (nnField_formatXB _ _ _), List.forall_mem_singleton.2 (congrArg BitVec.toNat (opField_formatXB _ _ _))⟩
theorem TableRow.addI (x : Reg) : TableRow.Statement (.addI x) :=
  List.forall_mem_cons.2 ⟨congrArg BitVec.toNat (nnField_formatXB _ _ _), List.forall_mem_singleton.2 (congrArg BitVec.toNat (opField_formatXB _ _ _))⟩
theorem TableRow.ldF (x : Reg) : TableRow.Statement (.ldF x) :=
  List.forall_mem_cons.2 ⟨congrArg BitVec.toNat (nnField_formatXB _ _ _), List.forall_mem_singleton.2 (congrArg BitVec.toNat (opField_formatXB _ _ _))⟩
theorem TableRow.ldHF (x : Reg) : TableRow.Statement (.ldHF x) :=
  List.forall_mem_cons.2 ⟨congrArg BitVec.toNat (nnField_formatXB _ _ _), List.forall_mem_singleton.2 (congrArg BitVec.toNat (opField_formatXB _ _ _))⟩
theorem TableRow.ldB (x : Reg) : TableRow.Statement (.ldB x) :=
  List.forall_mem_cons.2 ⟨congrArg BitVec.toNat (nnField_formatXB _ _ _), List.forall_mem_singleton.2 (congrArg BitVec.toNat (opField_formatXB _ _ _))⟩
theorem TableRow.ldMemVx (x : Reg) : TableRow.Statement (.ldMemVx x) :=
  List.forall_mem_cons.2 ⟨congrArg BitVec.toNat (nnField_formatXB _ _ _), List.forall_mem_singleton.2 (congrArg BitVec.toNat (opField_formatXB _ _ _))⟩
theorem TableRow.ldVxMem (x : Reg) : TableRow.Statement (.ldVxMem x) :=
  List.forall_mem_cons.2 ⟨congrArg BitVec.toNat (nnField_formatXB _ _ _), List.forall_mem_singleton.2 (congrArg BitVec.toNat (opField_formatXB _ _ _))⟩
theorem TableRow.ldRVx (x : Reg) : TableRow.Statement (.ldRVx x) :=
  List.forall_mem_cons.2 ⟨congrArg BitVec.toNat (nnField_formatXB _ _ _), List.forall_mem_singleton.2 (congrArg BitVec.toNat (opField_formatXB _ _ _))⟩
theorem TableRow.ldVxR (x : Reg) : TableRow.Statement (.ldVxR x) :=
  List.forall_mem_cons.2 ⟨congrArg BitVec.toNat (nnField_formatXB _ _ _), List.forall_mem_singleton.2 (congrArg BitVec.toNat (opField_formatXB _ _ _))⟩

end Sys2Proof.Laws
end

