-- ==== Sys2Proof/Laws/Plane.lean ====
section
/-! SUPPORT. The display plane cell by cell: what clearing, scrolling and the sprite blit give every cell
(42_display.md R200 to R204, R220 to R224). -/

namespace Sys2Proof.Machine

theorem planeWidth_le (h : Bool) : planeWidth h ≤ 128 := by cases h <;> decide
theorem planeHeight_le (h : Bool) : planeHeight h ≤ 64 := by cases h <;> decide

@[simp] theorem Display.row_ofRows (f : Nat → BitVec 128) (r : Nat) :
    (Display.ofRows f).row r = if r < 64 then f r else 0 := by
  simp only [Display.row, Display.ofRows]
  split <;> simp

theorem Display.cell_ofRows (f : Nat → BitVec 128) (c r : Nat) :
    (Display.ofRows f).cell c r = (decide (r < 64) && (f r).getLsbD c) := by
  simp only [Display.cell, Display.row_ofRows]
  split <;> simp_all

@[simp] theorem Display.cell_blank (c r : Nat) : Display.blank.cell c r = false := by
  simp only [Display.cell, Display.row, Display.blank]
  split <;> simp

theorem Display.cell_outside (d : Display) (c r : Nat) (h : 64 ≤ r ∨ 128 ≤ c) : d.cell c r = false := by
  simp only [Display.cell, Display.row]
  rcases h with h | h
  · rw [dif_neg (by omega)]; simp
  · exact BitVec.getLsbD_of_ge _ _ h

/-- Two planes with equal cells are equal. -/
theorem Display.ext_cell {d e : Display} (h : ∀ c r, d.cell c r = e.cell c r) : d = e := by
  apply Vector.ext
  intro r hr
  apply BitVec.eq_of_getLsbD_eq
  intro c _
  have := h c r
  simpa only [Display.cell, Display.row, dif_pos hr] using this

theorem getLsbD_columnMask (w c : Nat) (hw : w ≤ 128) : (columnMask w).getLsbD c = decide (c < w) := by
  simp only [columnMask, BitVec.getLsbD_ofNat, Nat.testBit_two_pow_sub_one]
  by_cases h : c < w
  · simp only [h, decide_true, Bool.and_true, decide_eq_true_eq]; omega
  · simp [h]

theorem getLsbD_blendRow (w : Nat) (new old : BitVec 128) (c : Nat) (hw : w ≤ 128) :
    (blendRow w new old).getLsbD c = if c < w then new.getLsbD c else old.getLsbD c := by
  simp only [blendRow, BitVec.getLsbD_or, BitVec.getLsbD_and, BitVec.getLsbD_not, getLsbD_columnMask w c hw]
  by_cases h : c < w
  · simp [h]
  · by_cases hc : c < 128
    · simp [h, hc]
    · simp [h, hc, BitVec.getLsbD_of_ge old c (by omega)]

/-- A view change gives each cell of the view its new value and leaves every other cell. -/
theorem Display.cell_mapView (w h : Nat) (f : Nat → BitVec 128) (d : Display) (c r : Nat) (hw : w ≤ 128) (hh : h ≤ 64) :
    (d.mapView w h f).cell c r = if c < w ∧ r < h then (f r).getLsbD c else d.cell c r := by
  simp only [Display.mapView, Display.cell_ofRows]
  by_cases hr : r < h
  · rw [if_pos hr, getLsbD_blendRow w _ _ _ hw]
    simp only [show r < 64 by omega, decide_true, Bool.true_and, hr, and_true]
    rfl
  · simp only [hr, if_false, and_false]
    by_cases h64 : r < 64
    · simp [h64, Display.cell]
    · simp [h64, Display.cell_outside d c r (by omega)]

/-- 00Cn (42_display.md R222). -/
theorem Display.cell_scrollDown (w h n : Nat) (d : Display) (c r : Nat) (hw : w ≤ 128) (hh : h ≤ 64) :
    (d.scrollDown w h n).cell c r =
      if c < w ∧ r < h then (if n ≤ r then d.cell c (r - n) else false) else d.cell c r := by
  rw [Display.scrollDown, Display.cell_mapView w h _ d c r hw hh]
  by_cases hn : n ≤ r <;> simp [hn, Display.cell]

/-- 00FB (42_display.md R223). -/
theorem Display.cell_scrollRight (w h : Nat) (d : Display) (c r : Nat) (hw : w ≤ 128) (hh : h ≤ 64) :
    (d.scrollRight w h).cell c r =
      if c < w ∧ r < h then (if 4 ≤ c then d.cell (c - 4) r else false) else d.cell c r := by
  rw [Display.scrollRight, Display.cell_mapView w h _ d c r hw hh]
  split
  · rename_i hc
    rw [BitVec.getLsbD_shiftLeft]
    by_cases h4 : 4 ≤ c
    · simp [h4, Display.cell, show ¬ c < 4 by omega, show c < 128 by omega]
    · simp [h4, show c < 4 by omega]
  · rfl

/-- 00FC (42_display.md R224). -/
theorem Display.cell_scrollLeft (w h : Nat) (d : Display) (c r : Nat) (hw : w ≤ 128) (hh : h ≤ 64) :
    (d.scrollLeft w h).cell c r =
      if c < w ∧ r < h then (if c + 4 < w then d.cell (c + 4) r else false) else d.cell c r := by
  rw [Display.scrollLeft, Display.cell_mapView w h _ d c r hw hh]
  split
  · rw [BitVec.getLsbD_ushiftRight, BitVec.getLsbD_and, getLsbD_columnMask w _ hw]
    by_cases h4 : c + 4 < w
    · simp [h4, Display.cell, Nat.add_comm 4 c]
    · simp [h4, show ¬ 4 + c < w by omega]
  · rfl

theorem getLsbD_spriteMaskUpTo (bits : Word) (cols x0 w n c : Nat) (hw : w ≤ 128) :
    (spriteMaskUpTo bits cols x0 w n).getLsbD c =
      (decide (x0 ≤ c ∧ c < x0 + n ∧ c < w) && bits.getLsbD (cols - 1 - (c - x0))) := by
  induction n with
  | zero =>
    have h : ¬ (x0 ≤ c ∧ c < x0 + 0 ∧ c < w) := by omega
    simp only [spriteMaskUpTo, h, decide_false, Bool.false_and]
    simp
  | succ k ih =>
    rw [spriteMaskUpTo, BitVec.getLsbD_or, ih]
    by_cases hc : c = x0 + k
    · subst hc
      have h1 : ¬ (x0 ≤ x0 + k ∧ x0 + k < x0 + k ∧ x0 + k < w) := by omega
      by_cases h2 : x0 + k < w
      · by_cases h3 : bits.getLsbD (cols - 1 - k)
        · simp [h2, h3, show x0 + k < 128 by omega]
        · simp [h2, h3]
      · simp [h2]
    · have h1 : (x0 ≤ c ∧ c < x0 + (k + 1) ∧ c < w) ↔ (x0 ≤ c ∧ c < x0 + k ∧ c < w) := by omega
      simp only [h1]
      split <;> simp [BitVec.getLsbD_twoPow, Ne.symm hc]

/-- The cells a sprite row flips: its columns from x0 on, inside the width, where the sprite bit is 1 (42_display.md R200, R204). -/
theorem getLsbD_spriteMask (bits : Word) (cols x0 w c : Nat) (hw : w ≤ 128) :
    (spriteMask bits cols x0 w).getLsbD c =
      (decide (x0 ≤ c ∧ c < x0 + cols ∧ c < w) && bits.getLsbD (cols - 1 - (c - x0))) :=
  getLsbD_spriteMaskUpTo bits cols x0 w cols c hw

theorem Blit.mask_below (b : Blit) (y : Nat) (h : b.h ≤ y) : b.mask y = 0 := by
  rw [Blit.mask, if_neg (by omega)]

theorem Blit.getLsbD_mask (b : Blit) (c y : Nat) (hw : b.w ≤ 128) :
    (b.mask y).getLsbD c =
      (decide (b.y0 ≤ y ∧ y < b.y0 + b.bits.length ∧ y < b.h ∧ b.x0 ≤ c ∧ c < b.x0 + b.cols ∧ c < b.w) &&
        (b.bits.getD (y - b.y0) 0).getLsbD (b.cols - 1 - (c - b.x0))) := by
  rw [Blit.mask]
  split
  · rename_i hy
    rw [getLsbD_spriteMask _ _ _ _ _ hw]
    simp only [hy.1, hy.2.1, hy.2.2, true_and]
  · rename_i hy
    have : ¬ (b.y0 ≤ y ∧ y < b.y0 + b.bits.length ∧ y < b.h ∧ b.x0 ≤ c ∧ c < b.x0 + b.cols ∧ c < b.w) := fun h =>
      hy ⟨h.1, h.2.1, h.2.2.1⟩
    simp only [this, decide_false, Bool.false_and]
    exact BitVec.getLsbD_zero

/-- The blit XORs every cell with the sprite's (42_display.md R201). -/
theorem Blit.cell_apply (b : Blit) (d : Display) (c y : Nat) (hh : b.h ≤ 64) :
    (b.apply d).cell c y = (d.cell c y ^^ (b.mask y).getLsbD c) := by
  rw [Blit.apply, Display.cell_ofRows, BitVec.getLsbD_xor]
  by_cases hy : y < 64
  · simp [hy, Display.cell]
  · rw [b.mask_below y (by omega), Display.cell_outside d c y (by omega)]
    simp [hy]

/-- A row collides when some cell of it was 1 and receives a sprite bit 1 (42_display.md R201). -/
theorem Blit.hitsRow_iff (b : Blit) (d : Display) (y : Nat) :
    b.hitsRow d y = true ↔ ∃ c, d.cell c y = true ∧ (b.mask y).getLsbD c = true := by
  rw [Blit.hitsRow, bne_iff_ne, ne_eq]
  constructor
  · intro h
    by_contra hn
    simp only [not_exists, not_and, Bool.not_eq_true] at hn
    apply h
    apply BitVec.eq_of_getLsbD_eq
    intro c _
    rw [BitVec.getLsbD_and, show (0 : BitVec 128).getLsbD c = false from BitVec.getLsbD_zero]
    cases hd : (d.row y).getLsbD c
    · rfl
    · rw [hn c hd]; rfl
  · rintro ⟨c, h1, h2⟩ h
    have : (d.row y &&& b.mask y).getLsbD c = true := by
      rw [BitVec.getLsbD_and, h2]
      simpa [Display.cell] using h1
    rw [h, show (0 : BitVec 128).getLsbD c = false from BitVec.getLsbD_zero] at this
    exact Bool.noConfusion this

/-! ### The sprite draw: VF, the display and disp_changed are all it writes (42_display.md R200) -/

theorem State.runBlit_eq (s : State) (b : Blit) :
    ∃ v, s.runBlit b = { s with V := v, disp := b.apply s.disp, dispChanged := true } := by
  rw [State.runBlit]
  generalize b.apply s.disp = d
  exact ⟨_, rfl⟩

@[simp] theorem State.runBlit_disp (s : State) (b : Blit) : (s.runBlit b).disp = b.apply s.disp := by
  simp [State.runBlit]

/-- VF after a blit is the collision value (42_display.md R205). -/
theorem State.getV_runBlit_VF (s : State) (b : Blit) :
    (s.runBlit b).getV VF = collisionFlag s.hires (b.hitRows s.disp) b.y0 b.bits.length b.h := by
  rw [State.runBlit, State.getV_setV_same]

/-- A blit leaves every register but VF. -/
theorem State.getV_runBlit_ne (s : State) (b : Blit) {j : Reg} (h : j ≠ VF) : (s.runBlit b).getV j = s.getV j := by
  rw [State.runBlit, State.getV_setV_ne _ _ h, State.getV_setDisp]

/-! A blit leaves every other field. -/

@[simp] theorem State.profile_runBlit (s : State) (b : Blit) : (s.runBlit b).profile = s.profile := by
  obtain ⟨v, h⟩ := s.runBlit_eq b; rw [h]
@[simp] theorem State.mem_runBlit (s : State) (b : Blit) : (s.runBlit b).mem = s.mem := by
  obtain ⟨v, h⟩ := s.runBlit_eq b; rw [h]
@[simp] theorem State.I_runBlit (s : State) (b : Blit) : (s.runBlit b).I = s.I := by
  obtain ⟨v, h⟩ := s.runBlit_eq b; rw [h]
@[simp] theorem State.pc_runBlit (s : State) (b : Blit) : (s.runBlit b).pc = s.pc := by
  obtain ⟨v, h⟩ := s.runBlit_eq b; rw [h]
@[simp] theorem State.stack_runBlit (s : State) (b : Blit) : (s.runBlit b).stack = s.stack := by
  obtain ⟨v, h⟩ := s.runBlit_eq b; rw [h]
@[simp] theorem State.sp_runBlit (s : State) (b : Blit) : (s.runBlit b).sp = s.sp := by
  obtain ⟨v, h⟩ := s.runBlit_eq b; rw [h]
@[simp] theorem State.hires_runBlit (s : State) (b : Blit) : (s.runBlit b).hires = s.hires := by
  obtain ⟨v, h⟩ := s.runBlit_eq b; rw [h]
@[simp] theorem State.DT_runBlit (s : State) (b : Blit) : (s.runBlit b).DT = s.DT := by
  obtain ⟨v, h⟩ := s.runBlit_eq b; rw [h]
@[simp] theorem State.ST_runBlit (s : State) (b : Blit) : (s.runBlit b).ST = s.ST := by
  obtain ⟨v, h⟩ := s.runBlit_eq b; rw [h]
@[simp] theorem State.key_runBlit (s : State) (b : Blit) : (s.runBlit b).key = s.key := by
  obtain ⟨v, h⟩ := s.runBlit_eq b; rw [h]
@[simp] theorem State.flags_runBlit (s : State) (b : Blit) : (s.runBlit b).flags = s.flags := by
  obtain ⟨v, h⟩ := s.runBlit_eq b; rw [h]
@[simp] theorem State.waiting_runBlit (s : State) (b : Blit) : (s.runBlit b).waiting = s.waiting := by
  obtain ⟨v, h⟩ := s.runBlit_eq b; rw [h]
@[simp] theorem State.waitReg_runBlit (s : State) (b : Blit) : (s.runBlit b).waitReg = s.waitReg := by
  obtain ⟨v, h⟩ := s.runBlit_eq b; rw [h]
@[simp] theorem State.halted_runBlit (s : State) (b : Blit) : (s.runBlit b).halted = s.halted := by
  obtain ⟨v, h⟩ := s.runBlit_eq b; rw [h]
@[simp] theorem State.diag_runBlit (s : State) (b : Blit) : (s.runBlit b).diag = s.diag := by
  obtain ⟨v, h⟩ := s.runBlit_eq b; rw [h]
@[simp] theorem State.draws_runBlit (s : State) (b : Blit) : (s.runBlit b).draws = s.draws := by
  obtain ⟨v, h⟩ := s.runBlit_eq b; rw [h]
@[simp] theorem State.dispChanged_runBlit (s : State) (b : Blit) : (s.runBlit b).dispChanged = true := by
  obtain ⟨v, h⟩ := s.runBlit_eq b; rw [h]

end Sys2Proof.Machine
end

