-- ==== Sys2Proof/Tests/Slice0.lean ====
section
/-! SUPPORT. The model's own tests. Expected results come from the spec: "V n" is a vector of 95_test_vectors.md, "R n"
is a rule. Then the witnesses: for each obligation with hypotheses, a state and operands that meet them, at the boundaries. -/

namespace Sys2Proof.Tests

open Sys2Proof Sys2Proof.Machine Sys2Proof.Claims

/-! ### Helpers -/

/-- Reset, then `w` placed at pc, then a set-up. -/
def start (p : Profile) (w : Nat) (setup : State → State) : State := setup ((State.resetTo p).withFetchWord 16 w)

/-- An outcome is a next state that passes a check. -/
def ok (o : Result) (check : State → Bool) : Bool :=
  match o with
  | .next t => check t
  | .fault _ => false
  | .refused _ => false

/-- One Step on a set-up state under one profile ends in a state that passes. -/
def gives (p : Profile) (w : Nat) (setup : State → State) (check : State → Bool) : Bool := ok (step (start p w setup)) check

/-- The same under both profiles. -/
def both (w : Nat) (setup : State → State) (check : State → Bool) : Bool :=
  gives .chip8 w setup check && gives .schip w setup check

/-- Registers set, the last pair first. -/
def regs (l : List (Reg × Byte)) (s : State) : State := l.foldr (fun p t => t.setV p.1 p.2) s

/-- Bytes stored from an address on. -/
def bytes (a : Nat) (l : List Byte) (s : State) : State := { s with mem := s.mem.writeFrom a l }

/-- The plane with exactly these cells (column, row) set. -/
def plane (l : List (Nat × Nat)) : Display :=
  Display.ofRows fun r => l.foldl (fun row p => if p.2 = r then row ||| BitVec.twoPow 128 p.1 else row) 0

/-- A display put in place, in low or high resolution. -/
def shows (hires : Bool) (l : List (Nat × Nat)) (s : State) : State := { s with disp := plane l, hires := hires }

/-- The listed rows have these values; bit c of a row is column c. -/
def rows (t : State) (l : List (Nat × BitVec 128)) : Bool := l.all fun p => t.disp.row p.1 == p.2

/-! ### Well-formedness: each check refuses an ill-formed term -/

/-- 42_display.md R202: n = 0 belongs to the Dxy0 row. -/
theorem test_wf_drw_zero : (Instr.drw 0 1 0).rowCountOk = false ∧ (Instr.drw 0 1 0).wellFormed .schip = false := by decide
/-- 42_display.md R221: HIGH exists under SCHIP only. -/
theorem test_wf_high_chip8 : Instr.high.availableUnder .chip8 = false ∧ Instr.high.wellFormed .chip8 = false ∧
    Instr.high.wellFormed .schip = true := by decide

/-! ### Decoding: every constructor, the words written bit by bit from the rules' encodings (op, x, y, n / nn / nnn) -/

/-- Format Z and S, 30_encoding.md R82, R88. -/
theorem test_decode_system :
    decode .chip8 0b0000000011100000 = .instr .cls ∧
    decode .chip8 0b0000000011101110 = .instr .ret ∧
    decode .chip8 0b0000000011000101 = .instr (.scd 5) ∧
    decode .chip8 0b0000000011000000 = .instr (.scd 0) ∧
    decode .chip8 0b0000000011111011 = .instr .scr ∧
    decode .chip8 0b0000000011111100 = .instr .scl ∧
    decode .chip8 0b0000000011111101 = .instr .exit ∧
    decode .chip8 0b0000000011111110 = .instr .low ∧
    decode .schip 0b0000000011111111 = .instr .high := by decide

/-- Format A. -/
theorem test_decode_address :
    decode .chip8 0b0001101010111100 = .instr (.jp 0xABC) ∧
    decode .chip8 0b0010010000000001 = .instr (.call 0x401) ∧
    decode .chip8 0b1010111111111110 = .instr (.ldI 0xFFE) ∧
    decode .chip8 0b1011001100000010 = .instr (.jpOff 0x302) := by decide

/-- Format XB. -/
theorem test_decode_immediate :
    decode .chip8 0b0011010000010010 = .instr (.seImm 4 0x12) ∧
    decode .chip8 0b0100010000010011 = .instr (.sneImm 4 0x13) ∧
    decode .chip8 0b0110111110011001 = .instr (.ldImm 15 0x99) ∧
    decode .chip8 0b0111001000000011 = .instr (.addImm 2 0x03) ∧
    decode .chip8 0b1100001100001111 = .instr (.rnd 3 0x0F) := by decide

/-- Format XY. -/
theorem test_decode_two_registers :
    decode .chip8 0b0101000100100000 = .instr (.seReg 1 2) ∧
    decode .chip8 0b1001000100100000 = .instr (.sneReg 1 2) ∧
    decode .chip8 0b1000000100100000 = .instr (.ldReg 1 2) ∧
    decode .chip8 0b1000000100100001 = .instr (.orReg 1 2) ∧
    decode .chip8 0b1000000100100010 = .instr (.andReg 1 2) ∧
    decode .chip8 0b1000000100100011 = .instr (.xorReg 1 2) ∧
    decode .chip8 0b1000000100100100 = .instr (.addReg 1 2) ∧
    decode .chip8 0b1000000100100101 = .instr (.subReg 1 2) ∧
    decode .chip8 0b1000000100100110 = .instr (.shr 1 2) ∧
    decode .chip8 0b1000000100100111 = .instr (.subnReg 1 2) ∧
    decode .chip8 0b1000000100101110 = .instr (.shl 1 2) := by decide

/-- Format XYN. -/
theorem test_decode_draw :
    decode .chip8 0b1101000100100011 = .instr (.drw 1 2 3) ∧
    decode .chip8 0b1101000100101111 = .instr (.drw 1 2 15) ∧
    decode .chip8 0b1101000100100000 = .instr (.drwBig 1 2) := by decide

/-- Format XF. -/
theorem test_decode_function_byte :
    decode .chip8 0b1110010110011110 = .instr (.skp 5) ∧
    decode .chip8 0b1110010110100001 = .instr (.sknp 5) ∧
    decode .chip8 0b1111010100000111 = .instr (.ldVxDT 5) ∧
    decode .chip8 0b1111010100001010 = .instr (.ldVxK 5) ∧
    decode .chip8 0b1111010100010101 = .instr (.ldDTVx 5) ∧
    decode .chip8 0b1111010100011000 = .instr (.ldSTVx 5) ∧
    decode .chip8 0b1111010100011110 = .instr (.addI 5) ∧
    decode .chip8 0b1111010100101001 = .instr (.ldF 5) ∧
    decode .chip8 0b1111010100110000 = .instr (.ldHF 5) ∧
    decode .chip8 0b1111010100110011 = .instr (.ldB 5) ∧
    decode .chip8 0b1111010101010101 = .instr (.ldMemVx 5) ∧
    decode .chip8 0b1111010101100101 = .instr (.ldVxMem 5) ∧
    decode .chip8 0b1111010101110101 = .instr (.ldRVx 5) ∧
    decode .chip8 0b1111010110000101 = .instr (.ldVxR 5) := by decide

/-- Reserved words do not fall through to a neighbour (30_encoding.md R91). -/
theorem test_decode_unrecognized : decode .schip 0x8128 = .unrecognized .aluFamily ∧
    decode .schip 0xE1FF = .unrecognized .keyFamily ∧ decode .schip 0xF1FF = .unrecognized .miscFamily ∧
    decode .schip 0x0123 = .unrecognized .zeroFamily ∧ decode .chip8 0x00FF = .unrecognized .highUnderChip8 ∧
    decode .schip 0x00D0 = .unrecognized .zeroFamily := by decide

/-- The opcode table's numbering: bit 0 is the least significant bit of the word. -/
theorem test_decodeTableWord : decodeTableWord 16 0x6F99 = some (.ldImm 15 0x99) ∧ decodeTableWord 16 0x8128 = none := by decide

/-! ### The Step Driver -/

/-- V1, V4. -/
theorem test_unrecognized_step :
    both 0x0000 id (fun t => t.pc == 0x202 && t.diag == [.unrecognizedOpcode 0x200 0x0000]) = true ∧
    both 0x8128 (regs [(1, 3), (15, 9)]) (fun t => t.pc == 0x202 && t.diag == [.unrecognizedOpcode 0x200 0x8128] && t.getV 1 == 3 && t.getV 15 == 9) = true := by decide

/-- V9: the second byte of the word at 0x0FFF is at 0x000. -/
theorem test_fetch_wraps :
    (ok (step (bytes 0xFFF [0x61] (bytes 0 [0xF0] (State.reset.setPc 0x0FFF)))) (fun t => t.getV 1 == 0xF0 && t.pc == 0x1001)) = true := by decide

/-- V8. -/
theorem test_pc_wraps :
    (ok (step (bytes 0xFFE [0x60, 0x42] (State.reset.setPc 0xFFFE))) (fun t => t.getV 0 == 0x42 && t.pc == 0x0000)) = true := by decide

/-- V10, V11. -/
theorem test_suspended_step :
    (ok (step (State.reset.setWaiting true)) (fun t => t == State.reset.setWaiting true) && ok (step (State.reset.setHalted true)) (fun t => t == State.reset.setHalted true)) = true := by decide

/-! ### Control flow -/

/-- V20, V21. -/
theorem test_jp :
    both 0x1ABC id (fun t => t.pc == 0x0ABC) = true ∧
    both 0x1201 id (fun t => t.pc == 0x201) = true := by decide

/-- V22, V23, V24: sp = 0, 15, 16. -/
theorem test_call :
    both 0x2400 id (fun t => t.getStack 0 == 0x0202 && t.sp == 1 && t.pc == 0x400) = true ∧
    both 0x2400 (fun s => { s with sp := 15 }) (fun t => t.getStack 15 == 0x0202 && t.sp == 16 && t.pc == 0x400) = true ∧
    both 0x2400 (fun s => { s with sp := 16 }) (fun t => t.stack == State.reset.stack && t.sp == 16 && t.pc == 0x202 && t.diag == [.stackOverflow 0x200 0x2400]) = true := by decide

/-- V25, V26: sp = 2, 0. -/
theorem test_ret :
    both 0x00EE (fun s => { s with sp := 2, stack := (s.stack.set 1 0x0346).set 0 0x0222 }) (fun t => t.sp == 1 && t.pc == 0x346 && t.getStack 1 == 0x0346) = true ∧
    both 0x00EE id (fun t => t.sp == 0 && t.pc == 0x202 && t.diag == [.stackUnderflow 0x200 0x00EE]) = true := by decide

/-- V27, V28. -/
theorem test_seImm_sneImm :
    both 0x3412 (regs [(4, 0x12)]) (fun t => t.pc == 0x204) = true ∧
    both 0x3413 (regs [(4, 0x12)]) (fun t => t.pc == 0x202) = true ∧
    both 0x4412 (regs [(4, 0x12)]) (fun t => t.pc == 0x202) = true ∧
    both 0x4413 (regs [(4, 0x12)]) (fun t => t.pc == 0x204) = true := by decide

/-- V6, V7, V29, V30. -/
theorem test_seReg_sneReg :
    both 0x5127 (regs [(1, 7), (2, 7)]) (fun t => t.pc == 0x204) = true ∧
    both 0x912F (regs [(1, 7), (2, 8)]) (fun t => t.pc == 0x204) = true ∧
    both 0x5330 (regs [(3, 0x40)]) (fun t => t.pc == 0x204) = true ∧
    both 0x9330 (regs [(3, 0x40)]) (fun t => t.pc == 0x202) = true := by decide

/-- V32, V33, V34. -/
theorem test_skp_sknp :
    both 0xE59E (fun s => (regs [(5, 0x0A)] s).setKey 10 true) (fun t => t.pc == 0x204) = true ∧
    both 0xE5A1 (fun s => (regs [(5, 0x0A)] s).setKey 10 true) (fun t => t.pc == 0x202) = true ∧
    both 0xE59E (regs [(5, 0x0A)]) (fun t => t.pc == 0x202) = true ∧
    both 0xE5A1 (regs [(5, 0x0A)]) (fun t => t.pc == 0x204) = true ∧
    both 0xE59E (fun s => (regs [(5, 0x1A)] s).setKey 10 true) (fun t => t.pc == 0x204) = true := by decide

/-- V35, V36, V37, V38. -/
theorem test_jpOff :
    gives .chip8 0xB300 (regs [(0, 0x10), (3, 0x20)]) (fun t => t.pc == 0x310) = true ∧
    gives .schip 0xB300 (regs [(0, 0x10), (3, 0x20)]) (fun t => t.pc == 0x320) = true ∧
    gives .chip8 0xBFFF (regs [(0, 0xFF)]) (fun t => t.pc == 0x10FE) = true ∧
    gives .schip 0xBF00 (regs [(15, 0x02)]) (fun t => t.pc == 0xF02) = true := by decide

/-- V39: halted, a later Step changes nothing, a Tick still counts. -/
theorem test_exit :
    (both 0x00FD (fun s => s.setDT 1) (fun t => t.halted && t.pc == 0x202 && ok (step t) (fun u => u == t) && t.tick.DT == 0)) = true := by decide

/-! ### Arithmetic, logic, immediates, I load, random -/

/-- V50, V51, V52. -/
theorem test_ldImm_addImm :
    both 0x6F99 id (fun t => t.getV 15 == 0x99) = true ∧
    both 0x7203 (regs [(2, 0xFE), (15, 7)]) (fun t => t.getV 2 == 0x01 && t.getV 15 == 7) = true ∧
    both 0x7F01 (regs [(15, 0xFF)]) (fun t => t.getV 15 == 0) = true := by decide

/-- V53. -/
theorem test_ldReg :
    both 0x8430 (regs [(3, 0x55)]) (fun t => t.getV 4 == 0x55 && t.getV 3 == 0x55) = true := by decide

/-- V54, V55, V56, V57. -/
theorem test_logic :
    both 0x8121 (regs [(1, 0x0F), (2, 0xF0), (15, 5)]) (fun t => t.getV 1 == 0xFF && t.getV 15 == 0) = true ∧
    both 0x8122 (regs [(1, 0x3C), (2, 0x0F)]) (fun t => t.getV 1 == 0x0C && t.getV 15 == 0) = true ∧
    both 0x8113 (regs [(1, 0xAA)]) (fun t => t.getV 1 == 0 && t.getV 15 == 0) = true ∧
    both 0x8F11 (regs [(15, 0x0F), (1, 0xF0)]) (fun t => t.getV 15 == 0) = true := by decide

/-- V58, V59, V60, V61. -/
theorem test_addReg :
    both 0x8124 (regs [(1, 0x80), (2, 0x80)]) (fun t => t.getV 1 == 0 && t.getV 15 == 1) = true ∧
    both 0x8124 (regs [(1, 0xFF)]) (fun t => t.getV 1 == 0xFF && t.getV 15 == 0) = true ∧
    both 0x8F14 (regs [(15, 0xFF), (1, 2)]) (fun t => t.getV 15 == 1) = true ∧
    both 0x81F4 (regs [(1, 2), (15, 0xFF)]) (fun t => t.getV 1 == 1 && t.getV 15 == 1) = true := by decide

/-- V62, V63, V64. -/
theorem test_subReg :
    both 0x8015 (regs [(0, 5), (1, 3)]) (fun t => t.getV 0 == 2 && t.getV 15 == 1) = true ∧
    both 0x8015 (regs [(1, 1)]) (fun t => t.getV 0 == 0xFF && t.getV 15 == 0) = true ∧
    both 0x8005 (regs [(0, 0x42)]) (fun t => t.getV 0 == 0 && t.getV 15 == 1) = true := by decide

/-- V65, V66, V67. -/
theorem test_subnReg :
    both 0x8017 (regs [(0, 3), (1, 5)]) (fun t => t.getV 0 == 2 && t.getV 15 == 1) = true ∧
    both 0x8017 (regs [(0, 1)]) (fun t => t.getV 0 == 0xFF && t.getV 15 == 0) = true ∧
    both 0x8F17 (regs [(15, 0x10), (1, 0x20)]) (fun t => t.getV 15 == 1) = true := by decide

/-- V68, V69, V72, V74. -/
theorem test_shr :
    gives .schip 0x8126 (regs [(1, 5), (2, 0x10)]) (fun t => t.getV 1 == 2 && t.getV 15 == 1) = true ∧
    gives .chip8 0x8126 (regs [(1, 5), (2, 0x10)]) (fun t => t.getV 1 == 8 && t.getV 15 == 0) = true ∧
    both 0x8FF6 (regs [(15, 3)]) (fun t => t.getV 15 == 1) = true ∧
    gives .chip8 0x81F6 (regs [(15, 1)]) (fun t => t.getV 1 == 0 && t.getV 15 == 1) = true := by decide

/-- V70, V71, V73. -/
theorem test_shl :
    gives .schip 0x812E (regs [(1, 0x81), (2, 0x40)]) (fun t => t.getV 1 == 2 && t.getV 15 == 1) = true ∧
    gives .chip8 0x812E (regs [(1, 0x81), (2, 0x40)]) (fun t => t.getV 1 == 0x80 && t.getV 15 == 0) = true ∧
    both 0x8FFE (regs [(15, 0x80)]) (fun t => t.getV 15 == 1) = true := by decide

/-- V75. -/
theorem test_ldI :
    both 0xAFFF id (fun t => t.I == 0x0FFF) = true := by decide

/-- V76: a draw of 0xAB masked by 0x0F. -/
theorem test_rnd_mask (h : Config.randomByte 0 = 0xAB) :
    ∃ t, exec (.rnd 3 0x0F) State.reset = .next t ∧ t.getV 3 = 0x0B :=
  ⟨_, rfl, by
    change Config.randomByte 0 &&& 0x0F = 0x0B
    rw [h]; rfl⟩

/-- V77: a mask of 0 gives 0 whatever the draw. -/
theorem test_rnd_zero : ∃ t, exec (.rnd 3 0x00) State.reset = .next t ∧ t.getV 3 = 0x00 :=
  ⟨_, rfl, by
    change Config.randomByte 0 &&& 0#8 = 0#8
    simp⟩

/-! ### Display -/

/-- V80, V81. -/
theorem test_drw_glyph_and_clip :
    both 0xD015 id (fun t => rows t [(0, 0xF), (1, 0x9), (2, 0x9), (3, 0x9), (4, 0xF), (5, 0), (63, 0)] && t.getV 15 == 0 && t.dispChanged) = true ∧
    both 0xD011 (fun s => bytes 0x300 [0xFF] (regs [(0, 62)] s) |>.setI 0x300) (fun t => rows t [(0, 0xC000000000000000), (1, 0)] && t.getV 15 == 0) = true := by decide

/-- V91 in low resolution; V92 (first draw) in high resolution: two rows clipped. -/
theorem test_drw_collision :
    both 0xD011 (fun s => shows false [(3, 0)] (bytes 0x300 [0xFF] (s.setI 0x300))) (fun t => rows t [(0, 0xF7), (1, 0)] && t.getV 15 == 1) = true ∧
    gives .schip 0xD014 (fun s => shows true [] (bytes 0x300 [0xFF, 0xFF, 0xFF, 0xFF] (regs [(1, 62)] (s.setI 0x300)))) (fun t => rows t [(61, 0), (62, 0xFF), (63, 0xFF), (0, 0), (1, 0)] && t.getV 15 == 2) = true := by decide

/-- V87, V90. -/
theorem test_drwBig :
    gives .chip8 0xD010 (fun s => shows false [(1, 1)] (regs [(15, 9)] s)) (fun t => rows t [(0, 0), (1, 2), (2, 0)] && t.getV 15 == 0 && t.dispChanged) = true ∧
    gives .schip 0xD010 (fun s => bytes 0x300 [0x80, 0x01] (s.setI 0x300)) (fun t => rows t [(0, 0x8001), (1, 0)] && t.getV 15 == 0) = true := by decide

/-- V89; the second draw of V93, over a plane of full rows: clipped rows count in high resolution only. -/
theorem test_drwBig_clip :
    gives .schip 0xD010 (fun s => bytes 0x300 (List.replicate 32 0xFF) (regs [(1, 24)] (s.setI 0x300))) (fun t => rows t [(23, 0), (24, 0xFFFF), (31, 0xFFFF), (32, 0), (0, 0)] && t.getV 15 == 0) = true ∧
    gives .schip 0xD010 (fun s => { bytes 0x300 (List.replicate 32 0xFF) (regs [(1, 56)] (s.setI 0x300)) with hires := true, disp := Vector.replicate 64 0xFFFF }) (fun t => rows t [(55, 0xFFFF), (56, 0), (63, 0), (0, 0xFFFF)] && t.getV 15 == 16) = true := by decide

/-- V96, V97, V3, V2. -/
theorem test_cls_low_high :
    both 0x00E0 (shows false [(3, 4)]) (fun t => rows t [(4, 0)] && t.dispChanged) = true ∧
    both 0x00FE (shows true [(100, 60)]) (fun t => rows t [(60, 0)] && !t.hires && t.dispChanged) = true ∧
    gives .schip 0x00FF (shows false [(3, 4)]) (fun t => rows t [(4, 0)] && t.hires && t.dispChanged && t.diag == []) = true ∧
    gives .chip8 0x00FF id (fun t => !t.hires && t.pc == 0x202 && t.diag == [.unrecognizedOpcode 0x200 0x00FF]) = true := by decide

/-- V98, V99, V103. -/
theorem test_scd :
    gives .schip 0x00C3 (shows true [(5, 10)]) (fun t => rows t [(10, 0), (13, 0x20)]) = true ∧
    gives .schip 0x00C3 (shows true [(5, 62)]) (fun t => rows t [(62, 0), (63, 0), (1, 0)]) = true ∧
    both 0x00C0 (shows false [(5, 31)]) (fun t => rows t [(31, 0x20), (0, 0)] && t.dispChanged) = true := by decide

/-- V100, V101, V102. -/
theorem test_scr_scl :
    both 0x00FB (shows false [(0, 0), (62, 0)]) (fun t => rows t [(0, 0x10)]) = true ∧
    gives .schip 0x00FC (shows true [(4, 7), (2, 7)]) (fun t => rows t [(7, 0x1)]) = true ∧
    both 0x00FC (shows false [(63, 31)]) (fun t => rows t [(31, 0x0800000000000000)]) = true := by decide

/-! ### Timers, key wait, I arithmetic, fonts, BCD, block transfer, flags storage -/

/-- V110, V111, V112. -/
theorem test_timers :
    both 0xF507 (fun s => s.setDT 0x3C) (fun t => t.getV 5 == 0x3C) = true ∧
    both 0xF515 (regs [(5, 0x3C)]) (fun t => t.DT == 0x3C && t.ST == 0) = true ∧
    both 0xF518 (regs [(5, 2)]) (fun t => t.ST == 2 && t.DT == 0) = true := by decide

/-- V113: the wait begins, and KeyUp(7) ends it. -/
theorem test_ldVxK :
    (both 0xFF0A id (fun t => t.waiting && t.waitReg == 15 && (t.keyUp 7).getV 15 == 7 && !(t.keyUp 7).waiting)) = true := by decide

/-- V116, V117, V120, V121. -/
theorem test_addI :
    gives .chip8 0xF11E (fun s => regs [(1, 1), (15, 7)] (s.setI 0x0FFF)) (fun t => t.I == 0x1000 && t.getV 15 == 7) = true ∧
    gives .schip 0xF11E (fun s => regs [(1, 1), (15, 7)] (s.setI 0x0FFF)) (fun t => t.I == 0x1000 && t.getV 15 == 1) = true ∧
    gives .schip 0xF11E (fun s => regs [(1, 1)] (s.setI 0xFFFF)) (fun t => t.I == 0x0000 && t.getV 15 == 1) = true ∧
    gives .schip 0xFF1E (fun s => regs [(15, 0x20)] (s.setI 0x0FF0)) (fun t => t.I == 0x1010 && t.getV 15 == 1) = true := by decide

/-- V122, V123, V124, V125. -/
theorem test_ldF_ldHF :
    both 0xF029 (regs [(0, 0x0F)]) (fun t => t.I == 0x004B) = true ∧
    both 0xF029 (regs [(0, 0x1A)]) (fun t => t.I == 0x0032) = true ∧
    both 0xF030 (regs [(0, 2)]) (fun t => t.I == 0x0064) = true ∧
    both 0xF030 (regs [(0, 0xFF)]) (fun t => t.I == 0x00E6) = true := by decide

/-- V126, V128. -/
theorem test_ldB :
    both 0xF033 (fun s => regs [(0, 0xFE)] (s.setI 0x300)) (fun t => t.memRead 0x300 == 2 && t.memRead 0x301 == 5 && t.memRead 0x302 == 4 && t.I == 0x300) = true ∧
    both 0xF033 (fun s => regs [(0, 0xFF)] (s.setI 0x0FFE)) (fun t => t.memRead 0xFFE == 2 && t.memRead 0xFFF == 5 && t.memRead 0x000 == 5) = true := by decide

/-- V130, V131. -/
theorem test_ldMemVx :
    gives .chip8 0xF155 (fun s => regs [(0, 1), (1, 2), (2, 3)] (s.setI 0x300)) (fun t => t.memRead 0x300 == 1 && t.memRead 0x301 == 2 && t.memRead 0x302 == 0 && t.I == 0x302) = true ∧
    gives .schip 0xF155 (fun s => regs [(0, 1), (1, 2), (2, 3)] (s.setI 0x300)) (fun t => t.memRead 0x300 == 1 && t.memRead 0x301 == 2 && t.memRead 0x302 == 0 && t.I == 0x300) = true := by decide

/-- V133, V134. -/
theorem test_ldVxMem :
    gives .chip8 0xF265 (fun s => bytes 0x300 [0xAA, 0xBB, 0xCC, 0xDD] (s.setI 0x300)) (fun t => t.getV 0 == 0xAA && t.getV 1 == 0xBB && t.getV 2 == 0xCC && t.getV 3 == 0 && t.I == 0x303) = true ∧
    gives .schip 0xFF65 (fun s => bytes 0x30F [0x5A] (s.setI 0x300)) (fun t => t.getV 15 == 0x5A && t.I == 0x300) = true := by decide

/-- V135, V136, V137. -/
theorem test_ldRVx_ldVxR :
    both 0xFF75 (regs [(0, 0x10), (7, 0x17), (8, 0x99)]) (fun t => t.getFlag 0 == 0x10 && t.getFlag 7 == 0x17 && t.getFlag 8 == 0) = true ∧
    both 0xF285 (fun s => (((regs [(3, 0x33)] s).setFlag 0 0x10).setFlag 1 0x11).setFlag 2 0x12) (fun t => t.getV 0 == 0x10 && t.getV 1 == 0x11 && t.getV 2 == 0x12 && t.getV 3 == 0x33) = true ∧
    both 0xFF85 (regs [(15, 0x44)]) (fun t => t.getV 0 == 0 && t.getV 7 == 0 && t.getV 15 == 0x44) = true := by decide

/-! ### Host commands -/

/-- V150, V151: a timer at 0 stays; timers run while waiting. -/
theorem test_tick :
    ((State.reset.setDT 1).tick.tick.DT == 0 && State.reset.tick.ST == 0 && ((State.reset.setDT 5).setWaiting true).tick.DT == 4) = true := by decide

/-- V114, V152. -/
theorem test_keys :
    (((State.reset.keyDown 5).setWaiting true |>.keyDown 4).waiting && ((State.reset.setKey 3 true).keyUp 3) == State.reset) = true := by decide

/-- V154, V155: 3584 bytes load; 3585 are refused, reported, and leave memory. -/
theorem test_loadRom_lengths (image : List Byte) :
    (image.length = 3584 → loadSucceeds image = true) ∧
    (image.length = 3585 → State.reset.loadRom image = State.reset.report (.loadTooLarge 3585)) := by
  constructor
  · intro h; simp [loadSucceeds, h, romCapacity, romOrigin]
  · intro h; simp [State.loadRom, loadSucceeds, h, romCapacity, romOrigin]

/-- 70_reset_and_hazards.md R322: the image stands from 0x200 on. -/
theorem test_loadRom :
    ((State.reset.loadRom [0x12, 0x34]).memRead 0x200 == 0x12 && (State.reset.loadRom [0x12, 0x34]).memRead2 0x200 == 0x1234 && (State.reset.loadRom [0x12, 0x34]).memRead 0x202 == 0) = true := by decide

/-- 10_state.md R36: glyph F of each font, at 0x04B and 0x0E6. -/
theorem test_font_bytes :
    (State.reset.memRead 0x04B == 0xF0 && State.reset.memRead 0x04F == 0x80 && State.reset.memRead 0x0E6 == 0xFF && State.reset.memRead 0x0EF == 0xC0 && State.reset.memRead 0x0F0 == 0) = true := by decide

/-- 00_scope.md R8: the fonts given stand from 0x000 and 0x050 on. -/
theorem test_resetWithFonts :
    ((State.resetWithFonts [0x01] [0x02] .schip).memRead 0x000 == 0x01 && (State.resetWithFonts [0x01] [0x02] .schip).memRead 0x050 == 0x02) = true := by decide

/-- 60_exceptions.md R296: the view is W x H, and nothing outside it is read. -/
theorem test_view :
    (State.reset.view 63 31 == some false && State.reset.view 64 31 == none && (shows true [(127, 63)] State.reset).view 127 63 == some true) = true := by decide

/-- 60_exceptions.md R282. -/
theorem test_diagnostic_codes :
    ((Diagnostic.unrecognizedOpcode 0 0).code == 1 && (Diagnostic.stackOverflow 0 0).code == 2 && (Diagnostic.stackUnderflow 0 0).code == 3 && (Diagnostic.loadTooLarge 0).code == 4) = true := by decide

/-- 60_exceptions.md R298: Reset first, LoadRom at most once and before the first Step. -/
theorem test_legal_order :
    (legalOrder .powerUp [.reset .schip, .loadRom [], .step, .tick] && !legalOrder .powerUp [.step] && !legalOrder .powerUp [.reset .schip, .step, .loadRom []]) = true := by decide

/-! ### Witnesses

For every obligation with hypotheses, in the obligations' order: a state and operands that meet them all, each clause at a
boundary. `ok o check` says that `o` is a next state which passes `check`. -/

/-- A state of the loop: pc past an instruction fetched at 0x200. -/
def past (p : Profile) : State := (State.resetTo p).setPc 0x202

/-- sp at a value. -/
def withSp (n : Fin 17) (s : State) : State := { s with sp := n }

theorem witness_DecodingAnEncodedInstructionGivesItBack :
    (Instr.drw 15 0 15).wellFormed .chip8 = true ∧ Instr.high.wellFormed .schip = true ∧
    (Instr.scd 0).wellFormed .chip8 = true ∧ (Instr.jp 0xFFF).wellFormed .chip8 = true := by decide

theorem witness_EncodingADecodedWordGivesItBack :
    decode .chip8 0x912F = .instr (.sneReg 1 2) ∧ decode .schip 0xFF85 = .instr (.ldVxR 15) := by decide

theorem witness_OnlyHighDependsOnTheProfile : (0x00FE : Word) ≠ 0x00FF ∧ (0x0100 : Word) ≠ 0x00FF := by decide

theorem witness_StepRunsTheDecodedInstruction :
    (start .chip8 0x6142 id).waiting = false ∧ (start .chip8 0x6142 id).halted = false ∧
    decode .chip8 (wordAtPc (start .chip8 0x6142 id)) = .instr (.ldImm 1 0x42) ∧
    decode .schip (wordAtPc (bytes 0xFFF [0x61] (bytes 0 [0xF0] (State.reset.setPc 0x0FFF)))) = .instr (.ldImm 1 0xF0) := by
  decide

theorem witness_UnrecognizedWordIsAReportedNoOp :
    State.reset.waiting = false ∧ State.reset.halted = false ∧
    decode State.reset.profile (wordAtPc State.reset) = .unrecognized .zeroFamily := by decide

theorem witness_StepIsANoOpWhileWaitingOrHalted :
    (State.reset.setWaiting true).waiting = true ∧ (State.reset.setHalted true).halted = true := by decide

/-- A step with no diagnostic, and one with each of the three. -/
theorem witness_StepRaisesAtMostOneDiagnostic :
    both 0x6142 id (fun t => t.diag == []) = true ∧
    both 0x0000 id (fun t => t.diag == [.unrecognizedOpcode 0x200 0x0000]) = true ∧
    both 0x2FFF (withSp 16) (fun t => t.diag == [.stackOverflow 0x200 0x2FFF]) = true ∧
    both 0x00EE id (fun t => t.diag == [.stackUnderflow 0x200 0x00EE]) = true := by decide

/-- sp = 16, 15 and 0. -/
theorem witness_CallPushesTheReturnAddressOrIsSuppressed :
    (withSp 16 (past .chip8)).pc = 0x200 + 2 ∧ (withSp 16 (past .chip8)).sp.val = 16 ∧
    (withSp 15 (past .chip8)).sp.val < 16 ∧ (past .chip8).sp.val = 0 ∧
    ok (exec (.call 0x400) (withSp 15 (past .chip8))) (fun t => t.getStack 15 == 0x202 && t.sp == 16) = true := by decide

/-- sp = 0, 1 and 16. -/
theorem witness_ReturnPopsTheReturnAddressOrIsANoOp :
    (past .schip).pc = 0x200 + 2 ∧ (past .schip).sp.val = 0 ∧ 0 < (withSp 1 (past .schip)).sp.val ∧
    ok (exec .ret (withSp 16 (past .schip))) (fun t => t.sp == 15 && t.pc == 0) = true := by decide

theorem witness_ReturnUndoesCall :
    (withSp 15 (past .chip8)).sp.val < 16 ∧
    ok (exec (.call 0x400) (withSp 15 (past .chip8))) (fun t => ok (exec .ret t) (fun u => u.pc == 0x202 && u.sp == 15)) = true
    := by decide

/-- Low nibbles 0xA and 0xF, the byte's high nibble not 0. -/
theorem witness_SkipsOnAKey :
    (10 : Reg).val = ((regs [(5, 0x1A)] State.reset).getV 5).toNat % 16 ∧
    (15 : Reg).val = ((regs [(15, 0xFF)] State.reset).getV 15).toNat % 16 ∧
    (0 : Reg).val = (State.reset.getV 3).toNat % 16 := by decide

theorem witness_ComputedJumpAddsTheProfilesRegister :
    (15 : Reg).val = (0xFFF : Addr).toNat / 256 ∧ (0 : Reg).val = (0x0FF : Addr).toNat / 256 ∧
    (State.resetTo .chip8).profile = .chip8 ∧ (State.resetTo .schip).profile = .schip := by decide

theorem witness_ExitHaltsUntilReset :
    (State.reset.setHalted true).halted = true ∧
    ok (command (.keyUp 3) (State.reset.setHalted true)) (fun u => u.halted) = true ∧
    ok (command (.loadRom [1]) (State.reset.setHalted true)) (fun u => u.halted) = true := by decide

/-- Either profile fixes the source. -/
theorem witness_ShiftsUseTheProfilesSource :
    ((State.resetTo .schip).profile = .schip ∧ (regs [(1, 5), (2, 0x10)] (State.resetTo .schip)).getV 1 = 5) ∧
    ((State.resetTo .chip8).profile = .chip8 ∧ (regs [(1, 5), (2, 0x10)] (State.resetTo .chip8)).getV 2 = 0x10) := by decide

theorem witness_ResolutionSwitchesClearTheDisplay : State.reset.profile = .schip := by decide

/-- The view's last cell in both resolutions, with n = 15, the row above it and the first row. -/
theorem witness_ScrollDownMovesRows :
    127 < planeWidth true ∧ 63 < planeHeight true ∧ 63 < planeWidth false ∧ 31 < planeHeight false ∧
    (15 : Nibble).toNat ≤ 15 ∧ ¬ (15 : Nibble).toNat ≤ 14 := by decide

theorem witness_SidewaysScrollsMoveColumns :
    123 + 4 < planeWidth true ∧ ¬ 124 + 4 < planeWidth true ∧ 59 + 4 < planeWidth false ∧ ¬ 60 + 4 < planeWidth false := by decide

/-- Both resolutions; one colliding row, and in high resolution one clipped row. -/
theorem witness_DrawWritesTheCollisionValue :
    State.reset.hires = false ∧ (shows true [] State.reset).hires = true ∧
    collidingRows (shows false [(0, 0)] State.reset) 0 0 1 = 1 ∧ collidingRows State.reset 0 0 1 = 0 ∧
    startRow (shows true [] (regs [(1, 63)] State.reset)) 1 + formRows .schip 2 - planeHeight true = 1 := by decide

/-- A glyph drawn and erased, and a clipped 16x16 sprite. -/
theorem witness_DrawingTwiceRestoresTheDisplay :
    (0 : Reg) ≠ VF ∧ (14 : Reg) ≠ VF ∧
    ok (exec (drawInstr 0 14 5) State.reset)
      (fun t => rows t [(0, 0xF)] && ok (exec (drawInstr 0 14 5) t) (fun u => rows u [(0, 0)] && u.getV VF == 1)) = true ∧
    ok (exec (drawInstr 0 0 0) (regs [(0, 60)] State.reset)) (fun t => ok (exec (drawInstr 0 0 0) t) (fun u => rows u [(60, 0)]))
      = true := by decide

/-- A draw of no rows sets it; LD I leaves it; AckDisplay clears it. -/
theorem witness_DisplayChangedIsSetByDisplayInstructionsOnly :
    writes .dispChanged (.drwBig 0 0) = true ∧ (Instr.drwBig 0 0).availableUnder .chip8 = true ∧
    ok (exec (.drwBig 0 0) (State.resetTo .chip8)) (fun t => t.dispChanged) = true ∧
    writes .dispChanged .high = true ∧ Instr.high.availableUnder .schip = true ∧
    ok (exec .high State.reset) (fun t => t.dispChanged) = true ∧
    writes .dispChanged (.ldI 0) = false ∧
    ok (exec (.ldI 0) (State.reset.setDispChanged true)) (fun t => t.dispChanged) = true ∧
    ok (command .ackDisplay (State.reset.setDispChanged true)) (fun t => !t.dispChanged) = true := by decide

/-- A waiting state: Step leaves it, KeyUp ends the wait. -/
theorem witness_KeyWaitSuspendsUntilAKeyRelease :
    (State.reset.setWaiting true).waiting = true ∧
    ok (command .step (State.reset.setWaiting true)) (fun v => v == State.reset.setWaiting true) = true ∧
    ok (command (.keyUp 15) (State.reset.setWaiting true)) (fun v => !v.waiting && v.getV 0 == 15) = true ∧
    ok (command .tick (State.reset.setWaiting true)) (fun v => v.waiting) = true := by decide

theorem witness_KeyUpReleasesTheKeyAndEndsAWait :
    State.reset.waiting = false ∧ (State.reset.setWaiting true).waiting = true ∧
    ok (command (.keyUp 3) (State.reset.setKey 3 true)) (fun t => !t.getKey 3) = true := by decide

/-- Either profile; the sums 0x0FFF and 0x1000. -/
theorem witness_AddIndexSetsVFUnderSchipOnly :
    (State.resetTo .chip8).profile = .chip8 ∧ (State.resetTo .schip).profile = .schip ∧
    ok (exec (.addI 1) (State.reset.setI 0x0FFF)) (fun t => t.I == 0x0FFF && t.getV VF == 0) = true ∧
    ok (exec (.addI 1) (regs [(1, 1)] (State.reset.setI 0x0FFF))) (fun t => t.I == 0x1000 && t.getV VF == 1) = true := by decide

/-- The stored bytes wrap past 0xFFF. -/
theorem witness_BcdStoresTheDecimalDigits :
    (State.reset.setI 0x0FFE).mem.wf = true ∧ effAddr ((State.reset.setI 0x0FFE).indexPlus 2) = 0 := by decide

/-- All sixteen registers and one, the stored bytes wrapping, under both profiles. -/
theorem witness_StoreRegistersWritesV0ToVx :
    (State.reset.setI 0x0FF8).mem.wf = true ∧ (0 : Reg) ≤ 0 ∧ (15 : Reg) ≤ 15 ∧
    effAddr ((State.reset.setI 0x0FF8).indexPlus 8) = 0 ∧
    ok (exec (.ldMemVx 15) ((State.resetTo .chip8).setI 0x0FF8)) (fun t => t.I == 0x1008 && t.mem.wf) = true ∧
    ok (exec (.ldMemVx 15) ((State.resetTo .schip).setI 0x0FF8)) (fun t => t.I == 0x0FF8) = true := by decide

theorem witness_LoadRegistersReadsV0ToVx :
    (15 : Reg) ≤ 15 ∧
    ok (exec (.ldVxMem 15) ((State.resetTo .chip8).setI 0x0FFF)) (fun t => t.getV 1 == 0xF0 && t.I == 0x100F) = true ∧
    ok (exec (.ldVxMem 15) ((State.resetTo .schip).setI 0x0FFF)) (fun t => t.I == 0x0FFF) = true := by decide

/-- V0 and V1 stored, the registers changed, and loaded back. -/
theorem witness_StoreThenLoadRestoresTheRegisters :
    (regs [(0, 1), (1, 2)] (State.reset.setI 0x300)).mem.wf = true ∧
    ok (exec (.ldMemVx 1) (regs [(0, 1), (1, 2)] (State.reset.setI 0x300)))
      (fun t => ok (exec (.ldVxMem 1) (regs [(0, 9), (1, 9)] t)) (fun v => v.getV 0 == 1 && v.getV 1 == 2)) = true := by decide

/-- V7 is moved with x = 15, V8 is not, and with x = 0 only V0 is. -/
theorem witness_FlagsStorageMovesAtMostEightRegisters :
    (7 : Reg) ≤ 15 ∧ (7 : Reg) ≤ 7 ∧ ¬ (8 : Reg) ≤ 7 ∧ ¬ (1 : Reg) ≤ 0 ∧
    ok (exec (.ldRVx 15) (regs [(7, 7), (8, 8)] State.reset)) (fun t => t.getFlag 7 == 7 && t.getFlag 8 == 0) = true := by decide

/-- Each range's last byte and the next one's first, one clause at a time. -/
theorem witness_ResetGivesEveryElementItsValue :
    State.reset.memRead 0x04F = loresFont.getD 79 0 ∧ State.reset.memRead 0x050 = hiresFont.getD 0 0 ∧
    State.reset.memRead 0x0EF = hiresFont.getD 159 0 ∧ State.reset.memRead 0x0F0 = 0 ∧ State.reset.memRead 0xFFF = 0 := by decide

/-- No byte, one byte, and an image one byte too long. -/
theorem witness_LoadRomLoadsOrRefusesTheImage :
    State.reset.mem.wf = true ∧ ([] : List Byte).length ≤ 3584 ∧
    ok (command (.loadRom [7]) State.reset) (fun t => t.mem == [(0x200, 7)]) = true ∧
    (List.replicate 3584 (1 : Byte)).length ≤ 3584 ∧ (List.replicate 3585 (1 : Byte)).length > 3584 := by
  simp only [List.length_replicate]; decide

/-- The invariant is met by Reset under either profile. -/
theorem inv_resetTo (p : Profile) : (State.resetTo p).Inv := by
  refine ⟨rfl, fun _ => rfl, by simp [State.resetTo], fun _ c r _ => ?_⟩
  simp only [Display.cell, Display.row, State.resetTo]
  split <;> simp

/-- The invariant holds at reset, and a step from there is a next state. -/
theorem witness_StepKeepsTheInvariant : State.reset.Inv ∧ ok (step State.reset) (fun t => t.pc == 0x202) = true :=
  ⟨inv_resetTo .schip, by decide⟩

/-- In high resolution too, where cells outside the 64 x 32 view may be 1. -/
theorem witness_StepKeepsTheInvariant_hires :
    (shows true [(127, 63)] State.reset).Inv ∧ ok (step (shows true [(127, 63)] State.reset)) (fun t => t.hires) = true :=
  ⟨⟨rfl, nofun, by simp [shows, State.reset, State.resetTo], nofun⟩, by decide⟩

theorem witness_HostCommandsKeepTheInvariant :
    State.reset.Inv ∧ ok (commands [.loadRom [0xF3, 0x0A], .step, .tick, .keyUp 4] State.reset) (fun t => t.getV 3 == 4) = true :=
  ⟨inv_resetTo .schip, by decide⟩

/-- Flags storage above 7 is written by no instruction, and below 8 by Fx75. -/
theorem witness_EveryPartHasOnlyItsNamedWriters :
    writes (.flag 8) (.ldRVx 15) = false ∧ writes (.flag 7) (.ldRVx 15) = true ∧ writes (.memByte 0x300) (.ldVxMem 15) = false ∧
    ok (exec (.ldRVx 15) (regs [(8, 8)] State.reset)) (fun t => t.getFlag 8 == 0) = true := by decide

/-- Each clause: a wait and a halt kept, begun, and both changes of the resolution. -/
theorem witness_StepChangesModeBitsOnlyByTheirInstructions :
    ok (step (State.reset.setWaiting true)) (fun t => t.waiting) = true ∧
    ok (step (State.reset.setHalted true)) (fun t => t.halted) = true ∧
    both 0xF30A id (fun t => t.waiting) = true ∧ both 0x00FD id (fun t => t.halted) = true ∧
    gives .schip 0x00FE (shows true []) (fun t => !t.hires) = true ∧ gives .schip 0x00FF id (fun t => t.hires) = true := by decide

theorem witness_SoundTimerIsNeverRead :
    ok (step State.reset) (fun t => t.ST == 0) = true ∧ ok (step (State.reset.setST 9)) (fun t => t.ST == 9) = true := by decide

/-- sp = 1: the entry in use agrees, a dead one differs. -/
theorem witness_DeadStackEntriesAreNeverRead :
    sameLiveStack (withSp 1 (start .chip8 0x00EE id)) { withSp 1 (start .chip8 0x00EE id) with stack := State.reset.stack.set 1 7 } ∧
    ok (step (withSp 1 (start .chip8 0x00EE id))) (fun t => t.sp == 0) = true := by
  refine ⟨⟨rfl, ?_⟩, by decide⟩
  decide

/-- I is the next instruction's address: V0 and V1 become it. -/
theorem witness_StoredBytesAreFetched :
    State.reset.mem.wf = true ∧
    ok (exec (.ldMemVx 1) (regs [(0, 0x61), (1, 0x42)] ((past .schip).setI 0x202)))
      (fun t => !t.waiting && !t.halted && effAddr t.pc == 0x202 && t.mem.wf) = true ∧
    effAddr (((past .schip).setI 0x202).indexPlus 0) = 0x202 ∧ effAddr (((past .schip).setI 0x202).indexPlus 1) = 0x203 ∧
    decode .schip (wordOfBytes 0x61 0x42) = .instr (.ldImm 1 0x42) := by decide

/-- Two memories in canonical form that read alike, at both ends of the space. -/
theorem witness_EqualContentsAreEqualMemories :
    Memory.wf [(0x000, 1), (0xFFF, 2)] = true ∧
    ∀ a, a < 4096 → Memory.read [(0x000, 1), (0xFFF, 2)] a = Memory.read (Memory.write (Memory.write [] 0xFFF 2) 0x000 1) a := by
  refine ⟨by decide, fun a _ => ?_⟩
  rw [show Memory.write (Memory.write [] 0xFFF 2) 0x000 1 = [(0x000, 1), (0xFFF, 2)] by decide]


end Sys2Proof.Tests
end

section
/-! The Step driver on an unrecognized word (30_encoding.md R84 to R86, R90): what a running step fetches, that it then
reports, and what the report leaves. -/

namespace Sys2Proof.Proofs

open Sys2Proof Sys2Proof.Machine Sys2Proof.Claims

/-- The model's fetch reads the word at pc (30_encoding.md R84). -/
theorem fetch_eq_wordAtPc (s : State) : s.fetch = wordAtPc s := rfl

/-- The core runs when it neither waits nor is halted (30_encoding.md R86). -/
theorem suspended_eq_false {s : State} (hw : s.waiting = false) (hh : s.halted = false) : s.suspended = false := by
  simp [State.suspended, hw, hh]

/-- A running step on an unrecognized word advances pc and reports the word. -/
theorem step_of_decode_unrecognized {s : State} {why : Unrecognized} (hrun : s.suspended = false)
    (hdec : decode s.profile (wordAtPc s) = .unrecognized why) :
    step s = .next (s.advancePc.unrecognizedWord (wordAtPc s)) := by
  simp [step, hrun, fetch_eq_wordAtPc, hdec]

/-- The report after pc was advanced names the address the word was fetched from (60_exceptions.md R282). -/
theorem unrecognizedWord_advancePc (s : State) (w : Word) :
    s.advancePc.unrecognizedWord w =
      { s with pc := s.pc + 2, diag := s.diag ++ [.unrecognizedOpcode s.pc w] } := by
  rw [State.unrecognizedWord, State.ipc_advancePc]
  rfl

/-- Settles O8: a running step takes the report's branch, and the report changes only pc and the diagnostics. -/
theorem unrecognizedWordIsAReportedNoOp : Obligations.UnrecognizedWordIsAReportedNoOp := by
  intro s why hw hh hdec
  rw [step_of_decode_unrecognized (suspended_eq_false hw hh) hdec, unrecognizedWord_advancePc]

end Sys2Proof.Proofs
end

section
/-! Jumps and skips (40_control_flow.md): the words of formats A and XB as their rules write them, and what a write of pc
leaves unchanged. -/

namespace Sys2Proof.Proofs

open Sys2Proof Sys2Proof.Machine Sys2Proof.Claims

/-! ### Words (30_encoding.md R82) -/

/-- Concatenation is the or of its halves in their places. -/
theorem append_eq_shiftLeft_or {a b : Nat} (x : BitVec a) (y : BitVec b) :
    x ++ y = x.setWidth (a + b) <<< b ||| y.setWidth (a + b) := by
  rw [BitVec.append_def, BitVec.shiftLeftZeroExtend_eq, BitVec.setWidth'_eq]

/-- A word laid out in format A is the or of its fields in their places. -/
theorem formatA_eq_or (op : Nibble) (nnn : Addr) : formatA op nnn = op.setWidth 16 <<< 12 ||| nnn.setWidth 16 :=
  append_eq_shiftLeft_or op nnn

/-- A register's nibble, widened through a byte to a word, is the register's number. -/
theorem setWidth_ofFin_reg (x : Reg) :
    ((BitVec.ofFin (w := 4) x).setWidth 8).setWidth 16 = BitVec.ofNat 16 x.val := by
  revert x; decide

/-- A nibble shifted inside a byte loses no bit, so widening may come first. -/
theorem setWidth_shiftLeft_nibble (op : Nibble) : (op.setWidth 8 <<< 4).setWidth 16 = op.setWidth 16 <<< 4 := by
  revert op; decide

/-- A word laid out in format XB is the or of its fields in their places: the high byte is the or of op and x, and the
shift by 8 distributes over it. -/
theorem formatXB_eq_or (op : Nibble) (x : Reg) (nn : Byte) :
    formatXB op x nn = op.setWidth 16 <<< 12 ||| regAt x 8 ||| nn.setWidth 16 := by
  have hhigh : (op ++ BitVec.ofFin (w := 4) x : Byte).setWidth 16 = op.setWidth 16 <<< 4 ||| BitVec.ofNat 16 x.val := by
    rw [append_eq_shiftLeft_or, BitVec.setWidth_or, setWidth_shiftLeft_nibble, setWidth_ofFin_reg]
  calc formatXB op x nn
      = (op ++ BitVec.ofFin (w := 4) x : Byte).setWidth 16 <<< 8 ||| nn.setWidth 16 := append_eq_shiftLeft_or _ _
    _ = op.setWidth 16 <<< 12 ||| regAt x 8 ||| nn.setWidth 16 := by
      rw [hhigh, BitVec.shiftLeft_or_distrib, ← BitVec.shiftLeft_add, regAt]

/-- For `encodedAs` it is enough to lay the word out once and to decode the encoder's word. -/
theorem encodedAs_of_encode {w : Word} {i : Instr} (henc : encode i = w) (hdec : ∀ p, decode p (encode i) = .instr i) :
    encodedAs w i :=
  ⟨henc, henc ▸ hdec⟩

/-- The word 1nnn is JP nnn (40_control_flow.md R120). -/
theorem encodedAs_jp (nnn : Addr) : encodedAs (0x1000 ||| nnn.setWidth 16) (.jp nnn) :=
  encodedAs_of_encode (formatA_eq_or 0x1 nnn) fun p => by simp [encode, decode]

/-- The word 3xnn is SE Vx, nn (40_control_flow.md R124). -/
theorem encodedAs_seImm (x : Reg) (nn : Byte) :
    encodedAs (0x3000 ||| regAt x 8 ||| nn.setWidth 16) (.seImm x nn) :=
  encodedAs_of_encode (formatXB_eq_or 0x3 x nn) fun p => by simp [encode, decode]

/-! ### The program counter -/

/-- A write of pc leaves every other part. -/
theorem changesOnly_setPc (s : State) (a : Word) : changesOnly (fun p => p = .pc) s (s.setPc a) := by
  intro p hp
  cases p with
  | pc => exact absurd rfl hp
  | _ => rfl

/-- `Skip(cond)` adds 2 to pc if the condition holds, and writes nothing else. -/
theorem skipIf_eq_ite (s : State) (cond : Bool) :
    s.skipIf cond = { s with pc := if cond then s.pc + 2 else s.pc } := by
  rw [State.skipIf_eq, State.skipIf_pc]

/-! ### The instructions -/

/-- JP nnn is one write of pc. -/
theorem exec_jp (nnn : Addr) (s : State) : exec (.jp nnn) s = .next (s.setPc (zextAddr nnn)) := rfl

/-- SE Vx, nn is a skip on equality. -/
theorem exec_seImm (x : Reg) (nn : Byte) (s : State) :
    exec (.seImm x nn) s = .next (s.skipIf (s.getV x == nn)) := rfl

/-- Settles O12: JP writes the zero-extended address to pc, and that write leaves the rest. -/
theorem jumpSetsPcToTheAddress : Obligations.JumpSetsPcToTheAddress := by
  intro nnn s
  exact ⟨encodedAs_jp nnn, s.setPc (zextAddr nnn), exec_jp nnn s, State.pc_setPc s _, changesOnly_setPc s _⟩

/-- Settles O16: SE is a skip, and a skip changes at most pc. -/
theorem skipWhenARegisterEqualsAByte : Obligations.SkipWhenARegisterEqualsAByte := by
  intro x nn s
  refine ⟨encodedAs_seImm x nn, ?_⟩
  simp only [exec_seImm, skipIf_eq_ite, beq_iff_eq]

end Sys2Proof.Proofs
end

section
/-! Loads of an immediate (41_arithmetic.md R161, R175): the two words, and what a write of one register or of I leaves
unchanged. -/

namespace Sys2Proof.Proofs

open Sys2Proof Sys2Proof.Machine Sys2Proof.Claims

/-- The word 6xnn is LD Vx, nn (41_arithmetic.md R161). -/
theorem encodedAs_ldImm (x : Reg) (nn : Byte) :
    encodedAs (0x6000 ||| regAt x 8 ||| nn.setWidth 16) (.ldImm x nn) :=
  encodedAs_of_encode (formatXB_eq_or 0x6 x nn) fun p => by simp [encode, decode]

/-- The word Annn is LD I, nnn (41_arithmetic.md R175). -/
theorem encodedAs_ldI (nnn : Addr) : encodedAs (0xA000 ||| nnn.setWidth 16) (.ldI nnn) :=
  encodedAs_of_encode (formatA_eq_or 0xA nnn) fun p => by simp [encode, decode]

/-- A write of one register, VF among them, leaves the other registers and every other part. -/
theorem changesOnly_setV (s : State) (x : Reg) (b : Byte) : changesOnly (fun p => p = .reg x) s (s.setV x b) := by
  intro p hp
  cases p with
  | reg j => exact State.getV_setV_ne s b fun hj => hp (congrArg Part.reg hj)
  | _ => rfl

/-- A write of I leaves every other part. -/
theorem changesOnly_setI (s : State) (a : Word) : changesOnly (fun p => p = .index) s (s.setI a) := by
  intro p hp
  cases p with
  | index => exact absurd rfl hp
  | _ => rfl

/-- LD Vx, nn is one register write. -/
theorem exec_ldImm (x : Reg) (nn : Byte) (s : State) : exec (.ldImm x nn) s = .next (s.setV x nn) := rfl

/-- LD I, nnn is one write of I. -/
theorem exec_ldI (nnn : Addr) (s : State) : exec (.ldI nnn) s = .next (s.setI (zextAddr nnn)) := rfl

/-- Settles O21: LD Vx, nn writes the byte to V[x], and that write leaves the rest. -/
theorem loadImmediateSetsTheRegister : Obligations.LoadImmediateSetsTheRegister := by
  intro x nn s
  exact ⟨encodedAs_ldImm x nn, s.setV x nn, exec_ldImm x nn s, State.getV_setV_same s x nn, changesOnly_setV s x nn⟩

/-- Settles O27: LD I, nnn writes the zero-extended address to I, and that write leaves the rest. -/
theorem loadIndexSetsI : Obligations.LoadIndexSetsI := by
  intro nnn s
  exact ⟨encodedAs_ldI nnn, s.setI (zextAddr nnn), exec_ldI nnn s, State.I_setI s _, changesOnly_setI s _⟩

end Sys2Proof.Proofs
end

section
/-! Key wait and glyph address (43_memory_timer_input.md R243, R250): family F's words, the commands that leave a wait
in place, and where the glyph of a byte's low nibble lies. -/

namespace Sys2Proof.Proofs

open Sys2Proof Sys2Proof.Machine Sys2Proof.Claims

/-! ### Words of family F (30_encoding.md R82) -/

/-- A word of format XB with its two fixed fields together and the register after them, as family F's rules write it. -/
theorem formatXB_eq_fixed_or_regAt (op : Nibble) (x : Reg) (nn : Byte) :
    formatXB op x nn = (op.setWidth 16 <<< 12 ||| nn.setWidth 16) ||| regAt x 8 := by
  rw [formatXB_eq_or, BitVec.or_assoc, BitVec.or_comm (regAt x 8), ← BitVec.or_assoc]

/-- The word Fx0A is LD Vx, K (43_memory_timer_input.md R243). -/
theorem encodedAs_ldVxK (x : Reg) : encodedAs (0xF00A ||| regAt x 8) (.ldVxK x) :=
  encodedAs_of_encode (formatXB_eq_fixed_or_regAt 0xF x 0x0A) fun p => by simp [encode, decode, decodeMisc]

/-- The word Fx29 is LD F, Vx (43_memory_timer_input.md R250). -/
theorem encodedAs_ldF (x : Reg) : encodedAs (0xF029 ||| regAt x 8) (.ldF x) :=
  encodedAs_of_encode (formatXB_eq_fixed_or_regAt 0xF x 0x29) fun p => by simp [encode, decode, decodeMisc]

/-! ### The wait -/

/-- LD Vx, K records the register and begins the wait. -/
theorem exec_ldVxK (x : Reg) (s : State) : exec (.ldVxK x) s = .next ((s.setWaitReg x).setWaiting true) := rfl

/-- Beginning or ending a wait on a register leaves every other part. -/
theorem changesOnly_setWaiting_setWaitReg (s : State) (x : Reg) (b : Bool) :
    changesOnly (fun p => p = .waiting ∨ p = .waitReg) s ((s.setWaitReg x).setWaiting b) := by
  intro p hp
  cases p with
  | waiting => exact absurd (Or.inl rfl) hp
  | waitReg => exact absurd (Or.inr rfl) hp
  | _ => rfl

/-- A Step while waiting is a no-op (30_encoding.md R86). -/
theorem step_of_waiting {u : State} (hw : u.waiting = true) : step u = .next u := by
  simp [step, State.suspended, hw]

/-- LoadRom, whether the image fits or not, leaves the wait as it is. -/
theorem waiting_loadRom (s : State) (image : List Byte) : (s.loadRom image).waiting = s.waiting := by
  unfold State.loadRom
  split <;> rfl

/-- While waiting, every command but KeyUp and Reset leaves the wait in place. -/
theorem command_keeps_waiting {c : Command} {u v : State} (hw : u.waiting = true) (hc : command c u = .next v) :
    v.waiting = true ∨ (∃ k, c = .keyUp k) ∨ ∃ p, c = .reset p := by
  cases c with
  | reset p => exact .inr (.inr ⟨p, rfl⟩)
  | keyUp k => exact .inr (.inl ⟨k, rfl⟩)
  | step =>
    obtain rfl : u = v := Host.Outcome.next.inj ((step_of_waiting hw).symm.trans hc)
    exact .inl hw
  | loadRom image =>
    obtain rfl : u.loadRom image = v := Host.Outcome.next.inj hc
    exact .inl ((waiting_loadRom u image).trans hw)
  | tick | keyDown _ | ackDisplay =>
    obtain rfl := Host.Outcome.next.inj hc
    exact .inl hw

/-- Settles O39: LD Vx, K writes the two fields of the wait; a waiting Step is a no-op, and the commands that leave the
wait in place are all but KeyUp and Reset. -/
theorem keyWaitSuspendsUntilAKeyRelease : Obligations.KeyWaitSuspendsUntilAKeyRelease := by
  intro x s
  refine ⟨encodedAs_ldVxK x, _, exec_ldVxK x s, rfl, rfl, changesOnly_setWaiting_setWaitReg s x true, ?_⟩
  intro c u v hw hc
  constructor
  · rintro rfl
    exact Host.Outcome.next.inj (hc.symm.trans (step_of_waiting hw))
  · intro hend
    exact (command_keeps_waiting hw hc).resolve_left (by simp [hend])

/-! ### The low-resolution glyph -/

/-- LD F, Vx is one write of I. -/
theorem exec_ldF (x : Reg) (s : State) : exec (.ldF x) s = .next (s.setI (loresGlyph (lowNibble (s.getV x)))) := rfl

/-- The low nibble of a byte is the byte mod 16. -/
theorem val_lowNibble (b : Byte) : (lowNibble b).val = b.toNat % 16 :=
  BitVec.extractLsb'_toNat 0 4 b

/-- A low-resolution glyph starts at 5 times its digit: the font lies at address 0, and 16 bits hold 5 * 15. -/
theorem toNat_loresGlyph (digit : Reg) : (loresGlyph digit).toNat = 5 * digit.val := by
  have hdigit := digit.isLt
  rw [loresGlyph, loresBase, BitVec.toNat_ofNat]
  omega

/-- Settles O42: LD F, Vx writes the glyph's address to I, and that write leaves the rest. -/
theorem lowResolutionGlyphAddress : Obligations.LowResolutionGlyphAddress := by
  intro x s
  refine ⟨encodedAs_ldF x, _, exec_ldF x s, ?_, changesOnly_setI s _⟩
  rw [State.I_setI, toNat_loresGlyph, val_lowNibble]

end Sys2Proof.Proofs
end

section
/-! Decoding and encoding (30_encoding.md R81 to R91): the two round trips, the unrecognized words, and what the decoder
ignores: the low nibble of families 5, 9 and D, and the profile of every word but 0x00FF. -/

namespace Sys2Proof.Proofs

open Sys2Proof Sys2Proof.Machine Sys2Proof.Claims

/-! ### Decode after encode -/

/-- Settles O2: the decoder reads each field of the format back, and then takes the branch of the instruction's row. -/
theorem decodingAnEncodedInstructionGivesItBack : Obligations.DecodingAnEncodedInstructionGivesItBack := by
  intro p i hwf
  cases i with
  | cls | ret | scr | scl | exit | low => rfl
  | high =>
    obtain rfl : p = .schip := by simpa [Instr.wellFormed, Instr.rowCountOk, Instr.availableUnder] using hwf
    rfl
  | scd n => simp [encode, decode, decodeZero, formatS_ne_cls, formatS_ne_ret]
  | jp _ | call _ | seImm _ _ | sneImm _ _ | seReg _ _ | ldImm _ _ | addImm _ _ | sneReg _ _ | ldI _ | jpOff _
  | rnd _ _ => simp [encode, decode]
  | ldReg _ _ | orReg _ _ | andReg _ _ | xorReg _ _ | addReg _ _ | subReg _ _ | shr _ _ | subnReg _ _ | shl _ _ =>
    simp [encode, decode, decodeAlu]
  | drwBig _ _ => simp [encode, decode, decodeDraw]
  | drw x y n =>
    have hn : ¬ n = 0 := by simpa [Instr.wellFormed, Instr.rowCountOk, Instr.availableUnder] using hwf
    simpa [encode, decode, decodeDraw] using hn
  | skp _ | sknp _ => simp [encode, decode, decodeKey]
  | ldVxDT _ | ldVxK _ | ldDTVx _ | ldSTVx _ | addI _ | ldF _ | ldHF _ | ldB _ | ldMemVx _ | ldVxMem _ | ldRVx _
  | ldVxR _ => simp [encode, decode, decodeMisc]

/-- An instruction well-formed under both profiles decodes from the word its format lays out. -/
theorem encodedAs_of_wellFormed {w : Word} {i : Instr} (henc : encode i = w) (hwf : ∀ p, i.wellFormed p = true) :
    encodedAs w i :=
  encodedAs_of_encode henc fun p => decodingAnEncodedInstructionGivesItBack p i (hwf p)

/-! ### Encode after decode -/

/-- Format A laid out again from a word's own fields is the word. -/
theorem formatA_of_op {w : Word} {op : Nibble} (hop : opField w = op) : formatA op (nnnField w) = w := by
  rw [← hop, formatA_fields]

/-- Format XB laid out again from a word's own fields is the word. -/
theorem formatXB_of_fields {w : Word} {op : Nibble} {nn : Byte} (hop : opField w = op) (hnn : nnField w = nn) :
    formatXB op (xField w) nn = w := by
  rw [← hop, ← hnn, formatXB_fields]

/-- Format XY laid out again from a word's own fields is the word. -/
theorem formatXY_of_fields {w : Word} {op n : Nibble} (hop : opField w = op) (hn : nField w = n) :
    formatXY op (xField w) (yField w) n = w := by
  rw [← hop, ← hn, formatXY_fields]

/-- Clearing the low nibble of a word replaces its last field by 0. -/
theorem append_and_clearLow (h : Addr) (n : Nibble) : (h ++ n : Word) &&& 0xFFF0 = h ++ (0 : Nibble) := by
  rw [show (0xFFF0 : Word) = BitVec.allOnes 12 ++ (0 : Nibble) from rfl]
  apply BitVec.eq_of_getLsbD_eq
  intro i hi
  simp only [BitVec.getLsbD_and, BitVec.getLsbD_append, BitVec.getLsbD_allOnes]
  by_cases h4 : i < 4
  · simp [h4]
  · simp [h4, show i - 4 < 12 by omega]

/-- Format XY laid out again with n = 0 clears the low nibble of the word. -/
theorem formatXY_zero_of_op {w : Word} {op : Nibble} (hop : opField w = op) :
    formatXY op (xField w) (yField w) 0 = w &&& 0xFFF0 :=
  calc formatXY op (xField w) (yField w) 0
      = formatXY op (xField w) (yField w) (nField w) &&& 0xFFF0 := (append_and_clearLow _ _).symm
    _ = w &&& 0xFFF0 := by rw [formatXY_of_fields hop rfl]

/-- Family 0. -/
theorem encode_of_decodeZero {p : Profile} {w : Word} {i : Instr} (h : decodeZero p w = .instr i) :
    i.wellFormed p = true ∧ encode i = w := by
  simp only [decodeZero] at h
  split_ifs at h with hcls hret hscd hscr hscl hexit hlow hhigh
  · cases h; exact ⟨rfl, hcls.symm⟩
  · cases h; exact ⟨rfl, hret.symm⟩
  · cases h; exact ⟨rfl, formatS_fields w hscd⟩
  · cases h; exact ⟨rfl, hscr.symm⟩
  · cases h; exact ⟨rfl, hscl.symm⟩
  · cases h; exact ⟨rfl, hexit.symm⟩
  · cases h; exact ⟨rfl, hlow.symm⟩
  · cases p <;> cases h
    exact ⟨rfl, hhigh.symm⟩

/-- Family 8. -/
theorem encode_of_decodeAlu {p : Profile} {w : Word} {i : Instr} (hop : opField w = 0x8) (h : decodeAlu w = .instr i) :
    i.wellFormed p = true ∧ encode i = w := by
  simp only [decodeAlu] at h
  split at h <;> cases h
  all_goals exact ⟨rfl, formatXY_of_fields hop ‹_›⟩

/-- Family D. -/
theorem encode_of_decodeDraw {p : Profile} {w : Word} {i : Instr} (hop : opField w = 0xD) (h : decodeDraw w = .instr i) :
    i.wellFormed p = true ∧ encode i = w := by
  simp only [decodeDraw] at h
  split at h <;> cases h
  · exact ⟨rfl, formatXY_of_fields hop ‹_›⟩
  · exact ⟨by simpa [Instr.wellFormed, Instr.rowCountOk, Instr.availableUnder] using ‹¬ nField w = 0›,
      formatXY_of_fields hop rfl⟩

/-- Family E. -/
theorem encode_of_decodeKey {p : Profile} {w : Word} {i : Instr} (hop : opField w = 0xE) (h : decodeKey w = .instr i) :
    i.wellFormed p = true ∧ encode i = w := by
  simp only [decodeKey] at h
  split at h <;> cases h
  all_goals exact ⟨rfl, formatXB_of_fields hop ‹_›⟩

/-- Family F. -/
theorem encode_of_decodeMisc {p : Profile} {w : Word} {i : Instr} (hop : opField w = 0xF) (h : decodeMisc w = .instr i) :
    i.wellFormed p = true ∧ encode i = w := by
  simp only [decodeMisc] at h
  split at h <;> cases h
  all_goals exact ⟨rfl, formatXB_of_fields hop ‹_›⟩

/-- A nibble that is none of 0 to E is F. -/
theorem nibble_eq_F {n : Nibble} (h : n ∉ [0x0, 0x1, 0x2, 0x3, 0x4, 0x5, 0x6, 0x7, 0x8, 0x9, 0xA, 0xB, 0xC, 0xD, 0xE]) :
    n = 0xF := by
  revert n; decide

/-- Settles O3: each family's format, laid out again from the word's own fields, is the word; for families 5 and 9 with
the low nibble 0 in place of the word's. -/
theorem encodingADecodedWordGivesItBack : Obligations.EncodingADecodedWordGivesItBack := by
  intro p w i h
  simp only [decode] at h
  split at h
  case h_1 hop => simpa [hop] using encode_of_decodeZero h
  case h_2 hop | h_3 hop | h_11 hop | h_12 hop => cases h; simpa [hop] using ⟨rfl, formatA_of_op hop⟩
  case h_4 hop | h_5 hop | h_7 hop | h_8 hop | h_13 hop => cases h; simpa [hop] using ⟨rfl, formatXB_of_fields hop rfl⟩
  case h_6 hop | h_10 hop => cases h; simpa [hop] using ⟨rfl, formatXY_zero_of_op hop⟩
  case h_9 hop => simpa [hop] using encode_of_decodeAlu hop h
  case h_14 hop => simpa [hop] using encode_of_decodeDraw hop h
  case h_15 hop => simpa [hop] using encode_of_decodeKey hop h
  case h_16 =>
    have hop : opField w = 0xF := nibble_eq_F (by simp_all)
    simpa [hop] using encode_of_decodeMisc hop h

/-! ### The unrecognized words (30_encoding.md R91) -/

theorem toNat_opField (w : Word) : (opField w).toNat = w.toNat / 4096 := by
  have hw := w.isLt
  rw [opField, BitVec.extractLsb'_toNat, Nat.shiftRight_eq_div_pow]
  omega

theorem toNat_nField (w : Word) : (nField w).toNat = w.toNat % 16 := BitVec.extractLsb'_toNat 0 4 w

theorem toNat_nnField (w : Word) : (nnField w).toNat = w.toNat % 256 := BitVec.extractLsb'_toNat 0 8 w

/-- The words of 00Cn are the sixteen from 0x00C0 on. -/
theorem highField_eq_scd_iff (w : Word) : w.extractLsb' 4 12 = 0x00C ↔ 0x00C0 ≤ w.toNat ∧ w.toNat ≤ 0x00CF := by
  have hw := w.isLt
  rw [← BitVec.toNat_inj, BitVec.extractLsb'_toNat, Nat.shiftRight_eq_div_pow,
    show BitVec.toNat (0x00C : Addr) = 12 from rfl]
  omega

/-- The decoder's answer is UNRECOGNIZED (30_encoding.md R87). -/
def IsUnrecognized (d : Decoded) : Prop := ∃ why, d = .unrecognized why

@[simp] theorem not_isUnrecognized_instr (i : Instr) : ¬ IsUnrecognized (.instr i) := nofun

@[simp] theorem isUnrecognized_unrecognized (why : Unrecognized) : IsUnrecognized (.unrecognized why) := ⟨why, rfl⟩

/-- Family 0. -/
theorem isUnrecognized_decodeZero (p : Profile) (w : Word) :
    IsUnrecognized (decodeZero p w) ↔
      (¬ (0x00C0 ≤ w.toNat ∧ w.toNat ≤ 0x00CF) ∧
        w.toNat ∉ [0x00E0, 0x00EE, 0x00FB, 0x00FC, 0x00FD, 0x00FE, 0x00FF]) ∨ (w.toNat = 0x00FF ∧ p = .chip8) := by
  have toNat_eq : ∀ k : Word, w = k ↔ w.toNat = k.toNat := fun k => BitVec.toNat_inj.symm
  simp only [decodeZero, highField_eq_scd_iff, toNat_eq]
  split_ifs with hcls hret hscd hscr hscl hexit hlow hhigh
  · simp [hcls]
  · simp [hret]
  · simp only [not_isUnrecognized_instr, hscd, and_self, not_true, false_and, false_or, false_iff]
    omega
  · simp [hscr]
  · simp [hscl]
  · simp [hexit]
  · simp [hlow]
  · cases p <;> simp [hhigh]
  · simp_all

/-- Family 8. -/
theorem isUnrecognized_decodeAlu (w : Word) :
    IsUnrecognized (decodeAlu w) ↔ w.toNat % 16 ∈ [0x8, 0x9, 0xA, 0xB, 0xC, 0xD, 0xF] := by
  rw [← toNat_nField]
  simp only [decodeAlu]
  generalize nField w = n
  split
  case h_10 =>
    simp only [isUnrecognized_unrecognized, true_iff]
    revert n
    decide
  all_goals simp

/-- Family D has none. -/
theorem not_isUnrecognized_decodeDraw (w : Word) : ¬ IsUnrecognized (decodeDraw w) := by
  simp only [decodeDraw]
  split <;> simp

/-- Family E. -/
theorem isUnrecognized_decodeKey (w : Word) : IsUnrecognized (decodeKey w) ↔ w.toNat % 256 ∉ [0x9E, 0xA1] := by
  rw [← toNat_nnField]
  simp only [decodeKey]
  split
  case h_3 => simp_all [← BitVec.toNat_inj]
  all_goals simp_all

/-- Family F. -/
theorem isUnrecognized_decodeMisc (w : Word) :
    IsUnrecognized (decodeMisc w) ↔
      w.toNat % 256 ∉ [0x07, 0x0A, 0x15, 0x18, 0x1E, 0x29, 0x30, 0x33, 0x55, 0x65, 0x75, 0x85] := by
  rw [← toNat_nnField]
  simp only [decodeMisc]
  split
  case h_13 => simp_all [← BitVec.toNat_inj]
  all_goals simp_all

/-- 0x00FF is of family 0. -/
theorem toNat_ne_high {w : Word} (h : opField w ≠ 0x0) : w.toNat ≠ 0x00FF := fun hw =>
  h (BitVec.eq_of_toNat_eq (by rw [toNat_opField, hw]; rfl))

/-- Settles O4: the families' lists, put together by the word's first digit. -/
theorem unrecognizedWordsAreTheListedOnes : Obligations.UnrecognizedWordsAreTheListedOnes := by
  intro p w
  rw [← toNat_opField]
  change IsUnrecognized (decode p w) ↔ _
  simp only [decode]
  split
  case h_1 hop => simp [hop, isUnrecognized_decodeZero]
  case h_9 hop =>
    have hne := toNat_ne_high (w := w) (by simp [hop])
    simp [hop, hne, isUnrecognized_decodeAlu]
  case h_14 hop =>
    have hne := toNat_ne_high (w := w) (by simp [hop])
    simp [hop, hne, not_isUnrecognized_decodeDraw]
  case h_15 hop =>
    have hne := toNat_ne_high (w := w) (by simp [hop])
    simp [hop, hne, isUnrecognized_decodeKey]
  case h_16 =>
    have hop : opField w = 0xF := nibble_eq_F (by simp_all)
    have hne := toNat_ne_high (w := w) (by simp [hop])
    simp [hop, hne, isUnrecognized_decodeMisc]
  all_goals
    rename_i hop
    have hne := toNat_ne_high (w := w) (by simp [hop])
    simp [hop, hne]

/-! ### What the decoder ignores -/

/-- Formats XY and XB agree when the low byte is y and n. -/
theorem formatXY_eq_formatXB (op : Nibble) (x y : Reg) (n : Nibble) :
    formatXY op x y n = formatXB op x (BitVec.ofFin (w := 4) y ++ n) :=
  BitVec.append_assoc

/-- A low byte of two nibbles, widened to a word. -/
theorem setWidth_append_nibbles (y : Reg) (n : Nibble) :
    (BitVec.ofFin (w := 4) y ++ n : Byte).setWidth 16 = regAt y 4 ||| n.setWidth 16 := by
  revert y n; decide

/-- A word laid out in format XY is the or of its fields in their places. -/
theorem formatXY_eq_or (op : Nibble) (x y : Reg) (n : Nibble) :
    formatXY op x y n = op.setWidth 16 <<< 12 ||| regAt x 8 ||| regAt y 4 ||| n.setWidth 16 := by
  rw [formatXY_eq_formatXB, formatXB_eq_or, setWidth_append_nibbles, ← BitVec.or_assoc]

/-- 5xyn is SE Vx, Vy for every n. -/
theorem decode_5xyn (p : Profile) (x y : Reg) (n : Nibble) :
    decode p (0x5000 ||| regAt x 8 ||| regAt y 4 ||| n.setWidth 16) = .instr (.seReg x y) := by
  have hword : formatXY 0x5 x y n = 0x5000 ||| regAt x 8 ||| regAt y 4 ||| n.setWidth 16 := formatXY_eq_or 0x5 x y n
  rw [← hword]
  simp [decode]

/-- 9xyn is SNE Vx, Vy for every n. -/
theorem decode_9xyn (p : Profile) (x y : Reg) (n : Nibble) :
    decode p (0x9000 ||| regAt x 8 ||| regAt y 4 ||| n.setWidth 16) = .instr (.sneReg x y) := by
  have hword : formatXY 0x9 x y n = 0x9000 ||| regAt x 8 ||| regAt y 4 ||| n.setWidth 16 := formatXY_eq_or 0x9 x y n
  rw [← hword]
  simp [decode]

/-- The sprite instruction of Dxyn is well-formed: n = 0 belongs to its own row (42_display.md R202). -/
theorem wellFormed_drawInstr (x y : Reg) (n : Nibble) (p : Profile) : (drawInstr x y n).wellFormed p = true := by
  rw [drawInstr]
  split
  · rfl
  · simpa [Instr.wellFormed, Instr.rowCountOk, Instr.availableUnder] using ‹¬ n = 0›

theorem encode_drawInstr (x y : Reg) (n : Nibble) : encode (drawInstr x y n) = formatXY 0xD x y n := by
  rw [drawInstr]
  split
  · rename_i hn; rw [hn]; rfl
  · rfl

/-- The word Dxyn is the sprite instruction that n selects. -/
theorem encodedAs_drawInstr (x y : Reg) (n : Nibble) :
    encodedAs (0xD000 ||| regAt x 8 ||| regAt y 4 ||| n.setWidth 16) (drawInstr x y n) :=
  encodedAs_of_wellFormed ((encode_drawInstr x y n).trans (formatXY_eq_or 0xD x y n)) (wellFormed_drawInstr x y n)

/-- Both sprite instructions run the one draw transition at n. -/
theorem exec_drawInstr (x y : Reg) (n : Nibble) (s : State) : exec (drawInstr x y n) s = .next (s.draw x y n) := by
  rw [drawInstr]
  split
  · rename_i hn; rw [hn]; rfl
  · rfl

/-- Settles O5: the format's words with n at large, and the two rows of Dxyn at the same transition. -/
theorem lowNibbleIsNotDecodedInFamilies5And9AndD : Obligations.LowNibbleIsNotDecodedInFamilies5And9AndD := by
  intro p x y n
  exact ⟨decode_5xyn p x y n, decode_9xyn p x y n, (encodedAs_drawInstr x y n).2 p, exec_drawInstr x y n⟩

/-- Family 0 asks for the profile at 0x00FF only. -/
theorem decodeZero_of_ne_high {w : Word} (hw : w ≠ 0x00FF) (p q : Profile) : decodeZero p w = decodeZero q w := by
  simp only [decodeZero, if_neg hw]

/-- Settles O6: only family 0 looks at the profile, and there only at 0x00FF. -/
theorem onlyHighDependsOnTheProfile : Obligations.OnlyHighDependsOnTheProfile := by
  refine ⟨fun w hw => ?_, rfl, .highUnderChip8, rfl⟩
  simp only [decode, decodeZero_of_ne_high hw .chip8 .schip]

/-- Settles O1: each word is closed, so the decoder runs on it. -/
theorem specWordsDecodeToTheirInstructions : Obligations.SpecWordsDecodeToTheirInstructions := by
  unfold Obligations.SpecWordsDecodeToTheirInstructions
  decide

end Sys2Proof.Proofs
end

section
/-! Frames: what each operation over the state leaves unchanged, and what each instruction with more than one outcome
does in each. -/

namespace Sys2Proof.Proofs

open Sys2Proof Sys2Proof.Machine Sys2Proof.Claims

/-! ### Frames in general -/

theorem changesOnly_refl (may : Part → Prop) (s : State) : changesOnly may s s := by
  intro p _
  cases p <;> rfl

/-- A frame that names more parts is weaker. -/
theorem changesOnly_mono {may may' : Part → Prop} {s t : State} (hmay : ∀ p, may p → may' p)
    (h : changesOnly may s t) : changesOnly may' s t :=
  fun p hp => h p fun hm => hp (hmay p hm)

/-- Frames compose: agreement on a part is transitive. -/
theorem changesOnly_trans {may : Part → Prop} {s t u : State} (hst : changesOnly may s t) (htu : changesOnly may t u) :
    changesOnly may s u := by
  intro p hp
  have h1 := hst p hp
  have h2 := htu p hp
  cases p <;> exact Eq.trans h2 h1

/-! ### Writes of one field -/

variable {may : Part → Prop} (s : State)

theorem changesOnly_setDT (b : Byte) : changesOnly (fun p => p = .DT) s (s.setDT b) := by
  intro p hp
  cases p with
  | DT => exact absurd rfl hp
  | _ => rfl

theorem changesOnly_setST (b : Byte) : changesOnly (fun p => p = .ST) s (s.setST b) := by
  intro p hp
  cases p with
  | ST => exact absurd rfl hp
  | _ => rfl

theorem changesOnly_setHires (b : Bool) : changesOnly (fun p => p = .hires) s (s.setHires b) := by
  intro p hp
  cases p with
  | hires => exact absurd rfl hp
  | _ => rfl

theorem changesOnly_setHalted (b : Bool) : changesOnly (fun p => p = .halted) s (s.setHalted b) := by
  intro p hp
  cases p with
  | halted => exact absurd rfl hp
  | _ => rfl

theorem changesOnly_setWaiting (b : Bool) : changesOnly (fun p => p = .waiting) s (s.setWaiting b) := by
  intro p hp
  cases p with
  | waiting => exact absurd rfl hp
  | _ => rfl

theorem changesOnly_setDispChanged (b : Bool) : changesOnly (fun p => p = .dispChanged) s (s.setDispChanged b) := by
  intro p hp
  cases p with
  | dispChanged => exact absurd rfl hp
  | _ => rfl

theorem changesOnly_report (d : Diagnostic) : changesOnly (fun p => p = .diag) s (s.report d) := by
  intro p hp
  cases p with
  | diag => exact absurd rfl hp
  | _ => rfl

theorem changesOnly_countDraw : changesOnly (fun p => p = .draws) s s.countDraw := by
  intro p hp
  cases p with
  | draws => exact absurd rfl hp
  | _ => rfl

theorem changesOnly_skipIf (cond : Bool) : changesOnly (fun p => p = .pc) s (s.skipIf cond) := by
  rw [State.skipIf_eq]
  exact changesOnly_setPc s _

/-! ### Writes of a table: the entries that `may` does not name keep their values -/

theorem changesOnly_withV (v : Vector Byte 16) (hv : ∀ j : Reg, ¬ may (.reg j) → v[j.val] = s.getV j) :
    changesOnly may s { s with V := v } := by
  intro p hp
  cases p with
  | reg j => exact hv j hp
  | _ => rfl

theorem changesOnly_withFlags (f : Vector Byte 16) (hf : ∀ j : Reg, ¬ may (.flag j) → f[j.val] = s.getFlag j) :
    changesOnly may s { s with flags := f } := by
  intro p hp
  cases p with
  | flag j => exact hf j hp
  | _ => rfl

theorem changesOnly_withMem (m : Memory) (hm : ∀ a, ¬ may (.memByte a) → m.read a = s.mem.read a) :
    changesOnly may s { s with mem := m } := by
  intro p hp
  cases p with
  | memByte a => exact hm a hp
  | _ => rfl

theorem changesOnly_setDisp (d : Display) (hd : ∀ c r, ¬ may (.cell c r) → d.cell c r = s.disp.cell c r)
    (hset : may .dispChanged) : changesOnly may s (s.setDisp d) := by
  intro p hp
  cases p with
  | cell c r => exact hd c r hp
  | dispChanged => exact absurd hset hp
  | _ => rfl

theorem changesOnly_setKey (k : Reg) (b : Bool) : changesOnly (fun p => p = .key k) s (s.setKey k b) := by
  intro p hp
  cases p with
  | key j => exact (State.getKey_setKey s k j b).trans (if_neg fun hj => hp (congrArg Part.key hj))
  | _ => rfl

/-- Result and flag: V[x] and VF. -/
theorem changesOnly_setResultFlag (x : Reg) (result flag : Byte) :
    changesOnly (fun p => p = .reg x ∨ p = .reg VF) s (s.setResultFlag x result flag) :=
  changesOnly_trans (changesOnly_mono (fun _ => Or.inl) (changesOnly_setV s x result))
    (changesOnly_mono (fun _ => Or.inr) (changesOnly_setV _ VF flag))

/-! ### The call stack -/

/-- CALL's push and jump: the entry at sp, sp and pc. -/
theorem changesOnly_pushPc_setPc (h : s.sp.val < 16) (a : Word) :
    changesOnly (fun p => (∃ j : Fin 16, j.val = s.sp.val ∧ p = .stack j) ∨ p = .sp ∨ p = .pc) s
      ((s.pushPc h).setPc a) := by
  intro p hp
  cases p with
  | stack j => exact (State.getStack_pushPc s h j).trans (if_neg fun hj => hp (.inl ⟨j, hj, rfl⟩))
  | sp => exact absurd (.inr (.inl rfl)) hp
  | pc => exact absurd (.inr (.inr rfl)) hp
  | _ => rfl

/-- RET's pop: sp and pc. -/
theorem changesOnly_popPc (h : 0 < s.sp.val) : changesOnly (fun p => p = .sp ∨ p = .pc) s (s.popPc h) := by
  intro p hp
  cases p with
  | sp => exact absurd (.inl rfl) hp
  | pc => exact absurd (.inr rfl) hp
  | _ => rfl

/-! ### Block transfers -/

theorem changesOnly_loadRegs (rs : List Reg) : changesOnly (fun p => ∃ i ∈ rs, p = .reg i) s (s.loadRegs rs) := by
  rw [State.loadRegs_eq]
  exact changesOnly_withV s _ fun j hj =>
    (State.getV_loadRegs s rs j).trans (if_neg fun hmem => hj ⟨j, hmem, rfl⟩)

theorem changesOnly_restoreFlags (rs : List Reg) :
    changesOnly (fun p => ∃ i ∈ rs, p = .reg i) s (s.restoreFlags rs) := by
  rw [State.restoreFlags_eq]
  exact changesOnly_withV s _ fun j hj =>
    (State.getV_restoreFlags s rs j).trans (if_neg fun hmem => hj ⟨j, hmem, rfl⟩)

theorem changesOnly_saveFlags (rs : List Reg) : changesOnly (fun p => ∃ i ∈ rs, p = .flag i) s (s.saveFlags rs) := by
  rw [State.saveFlags_eq]
  exact changesOnly_withFlags s _ fun j hj =>
    (State.getFlag_saveFlags s rs j).trans (if_neg fun hmem => hj ⟨j, hmem, rfl⟩)

/-- A store of registers in canonical memory: the bytes at their own addresses. -/
theorem changesOnly_storeRegs (rs : List Reg) (hwf : s.mem.wf = true) :
    changesOnly (fun p => ∃ i ∈ rs, p = .memByte (effAddr (s.indexPlus i.val))) s (s.storeRegs rs) := by
  rw [State.storeRegs_eq]
  refine changesOnly_withMem s _ fun a ha => State.read_storeRegs_other s rs a hwf fun i hi he => ha ⟨i, hi, ?_⟩
  rw [he]

/-! ### The display -/

/-- A sprite draw: cells of its display, VF and disp_changed (42_display.md R200). -/
theorem changesOnly_runBlit (b : Blit) (hw : b.w ≤ 128) (hh : b.h ≤ 64) :
    changesOnly (fun p => (∃ c r, c < b.w ∧ r < b.h ∧ p = .cell c r) ∨ p = .reg VF ∨ p = .dispChanged) s (s.runBlit b) := by
  rw [State.runBlit]
  refine changesOnly_trans (changesOnly_setDisp s _ (fun c r hcell => ?_) (.inr (.inr rfl)))
    (changesOnly_mono (fun _ hp => .inr (.inl hp)) (changesOnly_setV _ VF _))
  have hout : ¬ (c < b.w ∧ r < b.h) := fun ⟨hc, hr⟩ => hcell (.inl ⟨c, r, hc, hr, rfl⟩)
  have hmask : (b.mask r).getLsbD c = false := by
    rw [Blit.getLsbD_mask b c r hw]
    simp only [Bool.and_eq_false_iff, decide_eq_false_iff_not]
    exact .inl (by omega)
  rw [Blit.cell_apply b _ c r hh, hmask, Bool.xor_false]

/-- A view change leaves every cell outside the view. -/
theorem changesOnly_setDisp_mapView (f : Nat → BitVec 128) :
    changesOnly (fun p => viewCell s p ∨ p = .dispChanged) s
      (s.setDisp (s.disp.mapView (planeWidth s.hires) (planeHeight s.hires) f)) := by
  refine changesOnly_setDisp s _ (fun c r hcell => ?_) (.inr rfl)
  rw [Display.cell_mapView _ _ f _ c r (planeWidth_le _) (planeHeight_le _), if_neg]
  exact fun ⟨hc, hr⟩ => hcell (.inl ⟨c, r, hc, hr, rfl⟩)

/-- Clearing: every cell and disp_changed. -/
theorem changesOnly_setDisp_blank :
    changesOnly (fun p => anyCell p ∨ p = .dispChanged) s (s.setDisp Display.blank) :=
  changesOnly_setDisp s _ (fun c r hcell => absurd (.inl ⟨c, r, rfl⟩) hcell) (.inr rfl)

/-- Dxyn: cells of the view, VF and disp_changed. -/
theorem changesOnly_draw (x y : Reg) (n : Nibble) :
    changesOnly (fun p => viewCell s p ∨ p = .reg VF ∨ p = .dispChanged) s (s.draw x y n) :=
  changesOnly_runBlit s (s.blit x y n) (planeWidth_le s.hires) (planeHeight_le s.hires)

/-! ### The instructions with more than one outcome -/

variable {s}

theorem exec_call_of_lt (nnn : Addr) (h : s.sp.val < 16) :
    exec (.call nnn) s = .next ((s.pushPc h).setPc (zextAddr nnn)) := dif_pos h

theorem exec_call_of_full (nnn : Addr) (h : ¬ s.sp.val < 16) :
    exec (.call nnn) s = .next (s.report (.stackOverflow s.ipc (encode (.call nnn)))) := dif_neg h

theorem exec_ret_of_pos (h : 0 < s.sp.val) : exec .ret s = .next (s.popPc h) := dif_pos h

theorem exec_ret_of_empty (h : ¬ 0 < s.sp.val) :
    exec .ret s = .next (s.report (.stackUnderflow s.ipc (encode .ret))) := dif_neg h

theorem exec_high_of_schip (h : s.profile = .schip) :
    exec .high s = .next ((s.setHires true).setDisp Display.blank) := by
  simp only [exec, execHigh, h]

theorem exec_high_of_chip8 (h : s.profile = .chip8) :
    exec .high s = .next (s.report (.unrecognizedOpcode s.ipc (encode .high))) := by
  simp only [exec, execHigh, h]

theorem exec_addI_of_schip (x : Reg) (h : s.profile = .schip) :
    exec (.addI x) s = .next ((s.setI (s.I + zextByte (s.getV x))).setV VF (indexFlag s.I (s.getV x))) := by
  simp only [exec, execAddI, h]

theorem exec_addI_of_chip8 (x : Reg) (h : s.profile = .chip8) :
    exec (.addI x) s = .next (s.setI (s.I + zextByte (s.getV x))) := by
  simp only [exec, execAddI, h]

/-! What each of them can do: the operands fix the branch, and the branch the next state. -/

variable {t : State}

theorem call_cases {nnn : Addr} (h : exec (.call nnn) s = .next t) :
    (∃ hsp : s.sp.val < 16, t = (s.pushPc hsp).setPc (zextAddr nnn)) ∨
    (¬ s.sp.val < 16 ∧ t = s.report (.stackOverflow s.ipc (encode (.call nnn)))) := by
  by_cases hsp : s.sp.val < 16
  · exact .inl ⟨hsp, Host.Outcome.next.inj (h.symm.trans (exec_call_of_lt nnn hsp))⟩
  · exact .inr ⟨hsp, Host.Outcome.next.inj (h.symm.trans (exec_call_of_full nnn hsp))⟩

theorem ret_cases (h : exec .ret s = .next t) :
    (∃ hsp : 0 < s.sp.val, t = s.popPc hsp) ∨
    (¬ 0 < s.sp.val ∧ t = s.report (.stackUnderflow s.ipc (encode .ret))) := by
  by_cases hsp : 0 < s.sp.val
  · exact .inl ⟨hsp, Host.Outcome.next.inj (h.symm.trans (exec_ret_of_pos hsp))⟩
  · exact .inr ⟨hsp, Host.Outcome.next.inj (h.symm.trans (exec_ret_of_empty hsp))⟩

theorem high_cases (h : exec .high s = .next t) :
    (s.profile = .schip ∧ t = (s.setHires true).setDisp Display.blank) ∨
    (s.profile = .chip8 ∧ t = s.report (.unrecognizedOpcode s.ipc (encode .high))) := by
  cases hp : s.profile with
  | schip => exact .inl ⟨rfl, Host.Outcome.next.inj (h.symm.trans (exec_high_of_schip hp))⟩
  | chip8 => exact .inr ⟨rfl, Host.Outcome.next.inj (h.symm.trans (exec_high_of_chip8 hp))⟩

theorem addI_cases {x : Reg} (h : exec (.addI x) s = .next t) :
    (s.profile = .schip ∧ t = (s.setI (s.I + zextByte (s.getV x))).setV VF (indexFlag s.I (s.getV x))) ∨
    (s.profile = .chip8 ∧ t = s.setI (s.I + zextByte (s.getV x))) := by
  cases hp : s.profile with
  | schip => exact .inl ⟨rfl, Host.Outcome.next.inj (h.symm.trans (exec_addI_of_schip x hp))⟩
  | chip8 => exact .inr ⟨rfl, Host.Outcome.next.inj (h.symm.trans (exec_addI_of_chip8 x hp))⟩

/-- LOGIC_VF_RESET is true under both profiles, so a logic operation ends with VF = 0 (41_arithmetic.md R167). -/
theorem setLogic_eq (s : State) (x : Reg) (result : Byte) : s.setLogic x result = s.setResultFlag x result 0 := by
  rw [State.setLogic]
  cases s.profile <;> rfl

end Sys2Proof.Proofs
end

section
/-! The whole machine: the named writers of every part (10_state.md sections 2 to 6), and from them what a step does to
the mode bits and the diagnostic channel. -/

namespace Sys2Proof.Proofs

open Sys2Proof Sys2Proof.Machine Sys2Proof.Claims

/-! ### Named writers -/

/-- Fx75 and Fx85 move the registers up to x, and none above 7 (43_memory_timer_input.md R262). -/
theorem mem_regsUpTo_flagsLimit (i x : Reg) : i ∈ regsUpTo (flagsLimit x) ↔ i ≤ x ∧ i ≤ 7 := by
  rw [mem_regsUpTo]
  revert i x
  decide

/-- The frame of every instruction: the parts it writes are the ones the statement names for it. -/
theorem changesOnly_writes {i : Instr} {s t : State} (h : exec i s = .next t) :
    changesOnly (fun q => writes q i = true) s t := by
  cases i with
  | jp _ | jpOff _ =>
    obtain rfl := Host.Outcome.next.inj h
    exact changesOnly_mono (by rintro _ rfl; rfl) (changesOnly_setPc s _)
  | seImm _ _ | sneImm _ _ | seReg _ _ | sneReg _ _ | skp _ | sknp _ =>
    obtain rfl := Host.Outcome.next.inj h
    exact changesOnly_mono (by rintro _ rfl; rfl) (changesOnly_skipIf s _)
  | ldImm x _ | addImm x _ | ldReg x _ | ldVxDT x =>
    obtain rfl := Host.Outcome.next.inj h
    exact changesOnly_mono (by rintro _ rfl; exact decide_eq_true rfl) (changesOnly_setV s x _)
  | rnd x nn =>
    obtain rfl := Host.Outcome.next.inj h
    exact changesOnly_trans (changesOnly_mono (by rintro _ rfl; exact decide_eq_true rfl) (changesOnly_setV s x _))
      (changesOnly_mono (by rintro _ rfl; rfl) (changesOnly_countDraw _))
  | orReg x _ | andReg x _ | xorReg x _ =>
    obtain rfl := Host.Outcome.next.inj h
    rw [setLogic_eq]
    exact changesOnly_mono (by rintro _ (rfl | rfl) <;> exact decide_eq_true (by simp)) (changesOnly_setResultFlag s x _ _)
  | addReg x _ | subReg x _ | shr x _ | subnReg x _ | shl x _ =>
    obtain rfl := Host.Outcome.next.inj h
    exact changesOnly_mono (by rintro _ (rfl | rfl) <;> exact decide_eq_true (by simp)) (changesOnly_setResultFlag s x _ _)
  | ldI _ | ldF _ | ldHF _ =>
    obtain rfl := Host.Outcome.next.inj h
    exact changesOnly_mono (by rintro _ rfl; rfl) (changesOnly_setI s _)
  | addI x =>
    rcases addI_cases h with ⟨-, rfl⟩ | ⟨-, rfl⟩
    · exact changesOnly_trans (changesOnly_mono (by rintro _ rfl; rfl) (changesOnly_setI s _))
        (changesOnly_mono (by rintro _ rfl; rfl) (changesOnly_setV _ VF _))
    · exact changesOnly_mono (by rintro _ rfl; rfl) (changesOnly_setI s _)
  | call nnn =>
    rcases call_cases h with ⟨hsp, rfl⟩ | ⟨-, rfl⟩
    · exact changesOnly_mono (by rintro _ (⟨_, _, rfl⟩ | rfl | rfl) <;> rfl) (changesOnly_pushPc_setPc s hsp _)
    · exact changesOnly_mono (by rintro _ rfl; rfl) (changesOnly_report s _)
  | ret =>
    rcases ret_cases h with ⟨hsp, rfl⟩ | ⟨-, rfl⟩
    · exact changesOnly_mono (by rintro _ (rfl | rfl) <;> rfl) (changesOnly_popPc s hsp)
    · exact changesOnly_mono (by rintro _ rfl; rfl) (changesOnly_report s _)
  | exit =>
    obtain rfl := Host.Outcome.next.inj h
    exact changesOnly_mono (by rintro _ rfl; rfl) (changesOnly_setHalted s _)
  | cls =>
    obtain rfl := Host.Outcome.next.inj h
    exact changesOnly_mono (by rintro _ (⟨_, _, rfl⟩ | rfl) <;> rfl) (changesOnly_setDisp_blank s)
  | scd _ | scr | scl =>
    obtain rfl := Host.Outcome.next.inj h
    exact changesOnly_mono (by rintro _ (⟨_, _, _, _, rfl⟩ | rfl) <;> rfl) (changesOnly_setDisp_mapView s _)
  | low =>
    obtain rfl := Host.Outcome.next.inj h
    exact changesOnly_trans (changesOnly_mono (by rintro _ rfl; rfl) (changesOnly_setHires s false))
      (changesOnly_mono (by rintro _ (⟨_, _, rfl⟩ | rfl) <;> rfl) (changesOnly_setDisp_blank _))
  | high =>
    rcases high_cases h with ⟨-, rfl⟩ | ⟨-, rfl⟩
    · exact changesOnly_trans (changesOnly_mono (by rintro _ rfl; rfl) (changesOnly_setHires s true))
        (changesOnly_mono (by rintro _ (⟨_, _, rfl⟩ | rfl) <;> rfl) (changesOnly_setDisp_blank _))
    · exact changesOnly_mono (by rintro _ rfl; rfl) (changesOnly_report s _)
  | drwBig _ _ | drw _ _ _ =>
    obtain rfl := Host.Outcome.next.inj h
    exact changesOnly_mono (by rintro _ (⟨_, _, _, _, rfl⟩ | rfl | rfl) <;> rfl) (changesOnly_draw s _ _ _)
  | ldVxK x =>
    obtain rfl := Host.Outcome.next.inj h
    exact changesOnly_mono (by rintro _ (rfl | rfl) <;> rfl) (changesOnly_setWaiting_setWaitReg s x true)
  | ldDTVx _ =>
    obtain rfl := Host.Outcome.next.inj h
    exact changesOnly_mono (by rintro _ rfl; rfl) (changesOnly_setDT s _)
  | ldSTVx _ =>
    obtain rfl := Host.Outcome.next.inj h
    exact changesOnly_mono (by rintro _ rfl; rfl) (changesOnly_setST s _)
  | ldB _ =>
    obtain rfl := Host.Outcome.next.inj h
    exact changesOnly_withMem s _ fun a ha => absurd rfl ha
  | ldMemVx x =>
    obtain rfl := Host.Outcome.next.inj h
    rw [State.storeRegs_eq]
    exact changesOnly_trans (changesOnly_withMem s _ fun a ha => absurd rfl ha)
      (changesOnly_mono (by rintro _ rfl; rfl) (changesOnly_setI _ _))
  | ldVxMem x =>
    obtain rfl := Host.Outcome.next.inj h
    exact changesOnly_trans
      (changesOnly_mono (by rintro _ ⟨i, hi, rfl⟩; exact decide_eq_true ((mem_regsUpTo i x).1 hi))
        (changesOnly_loadRegs s _))
      (changesOnly_mono (by rintro _ rfl; rfl) (changesOnly_setI _ _))
  | ldRVx x =>
    obtain rfl := Host.Outcome.next.inj h
    exact changesOnly_mono (by rintro _ ⟨i, hi, rfl⟩; exact decide_eq_true ((mem_regsUpTo_flagsLimit i x).1 hi).2)
      (changesOnly_saveFlags s _)
  | ldVxR x =>
    obtain rfl := Host.Outcome.next.inj h
    exact changesOnly_mono (by rintro _ ⟨i, hi, rfl⟩; exact decide_eq_true ((mem_regsUpTo_flagsLimit i x).1 hi))
      (changesOnly_restoreFlags s _)

/-- Settles O55: the frame of the instruction, at the part. -/
theorem everyPartHasOnlyItsNamedWriters : Obligations.EveryPartHasOnlyItsNamedWriters := by
  intro i s t q h hq
  exact changesOnly_writes h q (by simp [hq])

end Sys2Proof.Proofs
end

section
/-! The Step driver (30_encoding.md R84 to R86): what one Step can do, and from that the diagnostics it raises and the
mode bits it changes. -/

namespace Sys2Proof.Proofs

open Sys2Proof Sys2Proof.Machine Sys2Proof.Claims

/-! ### Step -/

/-- A step of a suspended core is a no-op (30_encoding.md R86). -/
theorem step_of_suspended {s : State} (h : s.suspended = true) : step s = .next s := if_pos h

/-- A step of a running core on a recognized word executes it with pc advanced. -/
theorem step_of_decode_instr {s : State} {i : Instr} (hrun : s.suspended = false)
    (hdec : decode s.profile (wordAtPc s) = .instr i) : step s = exec i s.advancePc := by
  simp [step, hrun, fetch_eq_wordAtPc, hdec]

/-- All that a step can do: nothing, a report, or one instruction. -/
theorem step_cases {s t : State} (h : step s = .next t) :
    (s.suspended = true ∧ t = s) ∨
    (s.suspended = false ∧ ∃ why, decode s.profile (wordAtPc s) = .unrecognized why ∧
      t = s.advancePc.unrecognizedWord (wordAtPc s)) ∨
    (s.suspended = false ∧ ∃ i, decode s.profile (wordAtPc s) = .instr i ∧ exec i s.advancePc = .next t) := by
  cases hrun : s.suspended with
  | true => exact .inl ⟨rfl, Host.Outcome.next.inj (h.symm.trans (step_of_suspended hrun))⟩
  | false =>
    cases hdec : decode s.profile (wordAtPc s) with
    | unrecognized why =>
      exact .inr (.inl ⟨rfl, why, rfl, Host.Outcome.next.inj (h.symm.trans (step_of_decode_unrecognized hrun hdec))⟩)
    | instr i => exact .inr (.inr ⟨rfl, i, rfl, (step_of_decode_instr hrun hdec).symm.trans h⟩)

/-- Settles O7: a running step on a recognized word takes the executor's branch. -/
theorem stepRunsTheDecodedInstruction : Obligations.StepRunsTheDecodedInstruction := by
  intro s i hw hh hdec
  exact step_of_decode_instr (suspended_eq_false hw hh) hdec

/-- Settles O9: waiting or halted is suspended. -/
theorem stepIsANoOpWhileWaitingOrHalted : Obligations.StepIsANoOpWhileWaitingOrHalted := by
  intro s h
  refine step_of_suspended ?_
  simpa [State.suspended] using h

/-- Every instruction completes, from every state (60_exceptions.md R280). -/
theorem exec_completes (i : Instr) (s : State) : ∃ t, exec i s = .next t := by
  cases i with
  | call nnn =>
    by_cases h : s.sp.val < 16
    · exact ⟨_, exec_call_of_lt nnn h⟩
    · exact ⟨_, exec_call_of_full nnn h⟩
  | ret =>
    by_cases h : 0 < s.sp.val
    · exact ⟨_, exec_ret_of_pos h⟩
    · exact ⟨_, exec_ret_of_empty h⟩
  | high =>
    cases h : s.profile with
    | chip8 => exact ⟨_, exec_high_of_chip8 h⟩
    | schip => exact ⟨_, exec_high_of_schip h⟩
  | addI x =>
    cases h : s.profile with
    | chip8 => exact ⟨_, exec_addI_of_chip8 x h⟩
    | schip => exact ⟨_, exec_addI_of_schip x h⟩
  | _ => exact ⟨_, rfl⟩

/-- Settles O10: each of the three branches of a step answers a next state. -/
theorem stepNeverStops : Obligations.StepNeverStops := by
  intro s
  cases hrun : s.suspended with
  | true => exact ⟨s, step_of_suspended hrun⟩
  | false =>
    cases hdec : decode s.profile (wordAtPc s) with
    | unrecognized why => exact ⟨_, step_of_decode_unrecognized hrun hdec⟩
    | instr i =>
      rw [step_of_decode_instr hrun hdec]
      exact exec_completes i _

/-! ### Diagnostics (60_exceptions.md R281 to R285) -/

/-- But for the two rows that ignore a nibble, the encoder writes the decoded word (30_encoding.md R89). -/
theorem encode_of_decode {p : Profile} {w : Word} {i : Instr} (hdec : decode p w = .instr i)
    (hse : ∀ x y, i ≠ .seReg x y) (hsne : ∀ x y, i ≠ .sneReg x y) : encode i = w := by
  have henc := (encodingADecodedWordGivesItBack p w i hdec).2
  split at henc
  · rename_i hop
    rcases hop with hop | hop
    · exact absurd (by simpa [decode, hop] using hdec.symm) (hse (xField w) (yField w))
    · exact absurd (by simpa [decode, hop] using hdec.symm) (hsne (xField w) (yField w))
  · exact henc

/-- HIGH is decoded under SCHIP only (42_display.md R221). -/
theorem schip_of_decode_high {p : Profile} {w : Word} (h : decode p w = .instr .high) : p = .schip := by
  simpa [Instr.wellFormed, Instr.rowCountOk, Instr.availableUnder] using (encodingADecodedWordGivesItBack p w _ h).1

/-- Settles O11: of the instructions only CALL, RET and HIGH write the channel, each in one branch, and HIGH is decoded
under SCHIP only, where it takes the other branch. -/
theorem stepRaisesAtMostOneDiagnostic : Obligations.StepRaisesAtMostOneDiagnostic := by
  intro s t h
  rcases step_cases h with ⟨-, rfl⟩ | ⟨-, why, hdec, rfl⟩ | ⟨-, i, hdec, hexec⟩
  · exact .inl rfl
  · rw [unrecognizedWord_advancePc]
    exact .inr (.inl ⟨rfl, why, hdec⟩)
  · cases i with
    | call nnn =>
      rcases call_cases hexec with ⟨_, rfl⟩ | ⟨hsp, rfl⟩
      · exact .inl rfl
      · rw [State.sp_advancePc] at hsp
        rw [encode_of_decode hdec nofun nofun, State.ipc_advancePc]
        exact .inr (.inr (.inl ⟨rfl, by omega, nnn, hdec⟩))
    | ret =>
      rcases ret_cases hexec with ⟨_, rfl⟩ | ⟨hsp, rfl⟩
      · exact .inl rfl
      · rw [State.sp_advancePc] at hsp
        rw [encode_of_decode hdec nofun nofun, State.ipc_advancePc]
        exact .inr (.inr (.inr ⟨rfl, by omega, hdec⟩))
    | high =>
      have hp : s.advancePc.profile = .schip := schip_of_decode_high hdec
      obtain rfl := Host.Outcome.next.inj ((exec_high_of_schip hp).symm.trans hexec)
      exact .inl rfl
    | _ =>
      have hdiag : t.diag = s.advancePc.diag := everyPartHasOnlyItsNamedWriters _ _ _ .diag hexec (by rfl)
      exact .inl hdiag

/-! ### Mode bits (10_state.md sections 4, 6) -/

/-- What a step changed besides pc and the channel, the decoded instruction is a named writer of. -/
theorem exists_writer_of_step {s t : State} {q : Part} (hpc : q ≠ .pc) (hdiag : q ≠ .diag) (h : step s = .next t)
    (hne : ¬ q.same s t) : ∃ i, decode s.profile (wordAtPc s) = .instr i ∧ writes q i = true := by
  have hadv : q.same s s.advancePc := changesOnly_setPc s _ q hpc
  rcases step_cases h with ⟨-, rfl⟩ | ⟨-, why, hdec, rfl⟩ | ⟨-, i, hdec, hexec⟩
  · exact absurd (changesOnly_refl (fun _ => False) t q id) hne
  · have hframe : changesOnly (fun p => p = .pc ∨ p = .diag) s (s.advancePc.unrecognizedWord (wordAtPc s)) :=
      changesOnly_trans (changesOnly_mono (fun _ => .inl) (changesOnly_setPc s _))
        (changesOnly_mono (fun _ => .inr) (changesOnly_report _ _))
    exact absurd (hframe q (by simp [hpc, hdiag])) hne
  · have hframe : changesOnly (fun p => p = .pc ∨ writes p i = true) s t :=
      changesOnly_trans (changesOnly_mono (fun _ => .inl) (changesOnly_setPc s _))
        (changesOnly_mono (fun _ => .inr) (changesOnly_writes hexec))
    refine ⟨i, hdec, ?_⟩
    by_contra hw
    exact hne (hframe q (by simp [hpc, hw]))

theorem eq_ldVxK_of_writes_waiting {i : Instr} (h : writes .waiting i = true) : ∃ x, i = .ldVxK x := by
  cases i with
  | ldVxK x => exact ⟨x, rfl⟩
  | _ => exact Bool.noConfusion h

theorem eq_exit_of_writes_halted {i : Instr} (h : writes .halted i = true) : i = .exit := by
  cases i with
  | exit => rfl
  | _ => exact Bool.noConfusion h

theorem eq_low_or_high_of_writes_hires {i : Instr} (h : writes .hires i = true) : i = .low ∨ i = .high := by
  cases i with
  | low => exact .inl rfl
  | high => exact .inr rfl
  | _ => exact Bool.noConfusion h

/-- Settles O56: a suspended step is a no-op, and a mode bit that a running step changed has a named writer. -/
theorem stepChangesModeBitsOnlyByTheirInstructions : Obligations.StepChangesModeBitsOnlyByTheirInstructions := by
  intro s t h
  refine ⟨fun hw => ?_, fun hh => ?_, fun hw ht => ?_, fun hh ht => ?_, fun hne => ?_⟩
  · obtain rfl := Host.Outcome.next.inj ((stepIsANoOpWhileWaitingOrHalted s (.inl hw)).symm.trans h)
    exact hw
  · obtain rfl := Host.Outcome.next.inj ((stepIsANoOpWhileWaitingOrHalted s (.inr hh)).symm.trans h)
    exact hh
  · obtain ⟨i, hdec, hwr⟩ := exists_writer_of_step (q := .waiting) nofun nofun h (by simp [Part.same, hw, ht])
    obtain ⟨x, rfl⟩ := eq_ldVxK_of_writes_waiting hwr
    exact ⟨x, hdec⟩
  · obtain ⟨i, hdec, hwr⟩ := exists_writer_of_step (q := .halted) nofun nofun h (by simp [Part.same, hh, ht])
    obtain rfl := eq_exit_of_writes_halted hwr
    exact hdec
  · obtain ⟨i, hdec, hwr⟩ := exists_writer_of_step (q := .hires) nofun nofun h hne
    rcases eq_low_or_high_of_writes_hires hwr with rfl | rfl
    · exact .inl hdec
    · exact .inr ⟨schip_of_decode_high hdec, hdec⟩

end Sys2Proof.Proofs
end

section
/-! The machine's invariants (10_state.md R38): Reset meets them, and every command keeps them. -/

namespace Sys2Proof.Proofs

open Sys2Proof Sys2Proof.Machine Sys2Proof.Claims

/-! ### What an instruction does to the parts that the invariants speak of -/

/-- Every instruction keeps memory in canonical form: the two that write memory do it by canonical writes. -/
theorem wf_exec {i : Instr} {s t : State} (hwf : s.mem.wf = true) (h : exec i s = .next t) : t.mem.wf = true := by
  cases i with
  | ldB x =>
    obtain rfl := Host.Outcome.next.inj h
    exact State.wf_memWrite _ _ _ (State.wf_memWrite _ _ _ (State.wf_memWrite _ _ _ hwf))
  | ldMemVx x =>
    obtain rfl := Host.Outcome.next.inj h
    exact State.wf_storeRegs s _ hwf
  | seImm _ _ | sneImm _ _ | seReg _ _ | sneReg _ _ | skp _ | sknp _ =>
    obtain rfl := Host.Outcome.next.inj h
    rw [State.skipIf_eq]
    exact hwf
  | orReg _ _ | andReg _ _ | xorReg _ _ =>
    obtain rfl := Host.Outcome.next.inj h
    rw [setLogic_eq]
    exact hwf
  | ldVxMem x =>
    obtain rfl := Host.Outcome.next.inj h
    rw [State.loadRegs_eq]
    exact hwf
  | ldRVx x =>
    obtain rfl := Host.Outcome.next.inj h
    rw [State.saveFlags_eq]
    exact hwf
  | ldVxR x =>
    obtain rfl := Host.Outcome.next.inj h
    rw [State.restoreFlags_eq]
    exact hwf
  | call _ => rcases call_cases h with ⟨_, rfl⟩ | ⟨-, rfl⟩ <;> exact hwf
  | ret => rcases ret_cases h with ⟨_, rfl⟩ | ⟨-, rfl⟩ <;> exact hwf
  | high => rcases high_cases h with ⟨-, rfl⟩ | ⟨-, rfl⟩ <;> exact hwf
  | addI _ => rcases addI_cases h with ⟨-, rfl⟩ | ⟨-, rfl⟩ <;> exact hwf
  | scd _ | scr | scl =>
    obtain rfl := Host.Outcome.next.inj h
    rw [State.mem_setDisp]
    exact hwf
  | drwBig _ _ | drw _ _ _ =>
    obtain rfl := Host.Outcome.next.inj h
    rw [State.draw, State.mem_runBlit]
    exact hwf
  | _ =>
    obtain rfl := Host.Outcome.next.inj h
    exact hwf

/-- No instruction writes PROFILE (00_scope.md R6). -/
theorem profile_exec {i : Instr} {s t : State} (h : exec i s = .next t) : t.profile = s.profile :=
  everyPartHasOnlyItsNamedWriters i s t .profile h rfl

/-- In a CHIP8 state no instruction sets the resolution high: HIGH is unrecognized there. -/
theorem hires_exec_of_chip8 {i : Instr} {s t : State} (hp : s.profile = .chip8) (hlow : s.hires = false)
    (h : exec i s = .next t) : t.hires = false := by
  cases hw : writes .hires i with
  | false =>
    have heq : t.hires = s.hires := everyPartHasOnlyItsNamedWriters i s t .hires h hw
    rw [heq, hlow]
  | true =>
    rcases eq_low_or_high_of_writes_hires hw with rfl | rfl
    · obtain rfl := Host.Outcome.next.inj h
      rfl
    · obtain rfl := Host.Outcome.next.inj ((exec_high_of_chip8 hp).symm.trans h)
      exact hlow

/-- No instruction both begins a wait and halts, and a running core is in neither state. -/
theorem suspension_exec {i : Instr} {s t : State} (hrun : s.suspended = false) (h : exec i s = .next t) :
    ¬ (t.waiting = true ∧ t.halted = true) := by
  obtain ⟨hwaiting, hhalted⟩ : s.waiting = false ∧ s.halted = false := by simpa [State.suspended] using hrun
  rintro ⟨htw, hth⟩
  cases hw : writes .waiting i with
  | false =>
    have heq : t.waiting = s.waiting := everyPartHasOnlyItsNamedWriters i s t .waiting h hw
    simp [heq, hwaiting] at htw
  | true =>
    obtain ⟨x, rfl⟩ := eq_ldVxK_of_writes_waiting hw
    have heq : t.halted = s.halted := everyPartHasOnlyItsNamedWriters _ s t .halted h rfl
    simp [heq, hhalted] at hth

/-- In low resolution a cell outside 64 x 32 is not in the view. -/
theorem not_viewCell_of_low {s : State} {c r : Nat} (hlow : s.hires = false) (hcr : 64 ≤ c ∨ 32 ≤ r) :
    ¬ viewCell s (.cell c r) := by
  rintro ⟨c', r', hc, hr, heq⟩
  obtain ⟨rfl, rfl⟩ := Part.cell.inj heq
  rw [hlow] at hc hr
  simp only [planeWidth, planeHeight, Bool.false_eq_true, if_false] at hc hr
  omega

/-- A draw in low resolution leaves the cells outside its view 0. -/
theorem cell_draw_of_low {s : State} {x y : Reg} {n : Nibble} {c r : Nat}
    (hoff : s.hires = false → ∀ c r, 64 ≤ c ∨ 32 ≤ r → s.disp.cell c r = false) (hlow : s.hires = false)
    (hcr : 64 ≤ c ∨ 32 ≤ r) : (s.draw x y n).disp.cell c r = false := by
  have hcell : (s.draw x y n).disp.cell c r = s.disp.cell c r :=
    changesOnly_draw s x y n (.cell c r) (by simp [not_viewCell_of_low hlow hcr])
  exact hcell.trans (hoff hlow c r hcr)

/-- Every instruction keeps the cells outside the low-resolution view 0: the display instructions write only cells of
the view, or clear the display. -/
theorem offView_exec {i : Instr} {s t : State}
    (hoff : s.hires = false → ∀ c r, 64 ≤ c ∨ 32 ≤ r → s.disp.cell c r = false) (h : exec i s = .next t) :
    t.hires = false → ∀ c r, 64 ≤ c ∨ 32 ≤ r → t.disp.cell c r = false := by
  intro hlow c r hcr
  cases i with
  | cls | low =>
    obtain rfl := Host.Outcome.next.inj h
    exact Display.cell_blank c r
  | high =>
    rcases high_cases h with ⟨-, rfl⟩ | ⟨-, rfl⟩
    · exact Display.cell_blank c r
    · exact hoff hlow c r hcr
  | scd _ | scr | scl =>
    obtain rfl := Host.Outcome.next.inj h
    rw [State.hires_setDisp] at hlow
    exact (changesOnly_setDisp_mapView s _ (.cell c r) (by simp [not_viewCell_of_low hlow hcr])).trans (hoff hlow c r hcr)
  | drwBig _ _ | drw _ _ _ =>
    obtain rfl := Host.Outcome.next.inj h
    rw [State.draw, State.hires_runBlit] at hlow
    exact cell_draw_of_low hoff hlow hcr
  | _ =>
    have hcell := everyPartHasOnlyItsNamedWriters _ s t (.cell c r) h (by rfl)
    have hhires := everyPartHasOnlyItsNamedWriters _ s t .hires h (by rfl)
    exact hcell.trans (hoff (hhires.symm.trans hlow) c r hcr)

/-! ### Step -/

/-- An executor of a running core keeps the invariants. -/
theorem inv_exec {i : Instr} {s t : State} (hinv : s.Inv) (hrun : s.suspended = false) (h : exec i s = .next t) :
    t.Inv where
  memory := wf_exec hinv.memory h
  profile hp := hires_exec_of_chip8 ((profile_exec h).symm.trans hp) (hinv.profile ((profile_exec h).symm.trans hp)) h
  suspension := suspension_exec hrun h
  offView := offView_exec hinv.offView h

/-- A state that agrees with one that meets the invariants, on the parts they speak of, meets them; memory may be
another in canonical form, and a wait may have ended. -/
theorem inv_of_agree {s t : State} (hinv : s.Inv) (hmem : t.mem.wf = true) (hprofile : t.profile = s.profile)
    (hhires : t.hires = s.hires) (hwaiting : t.waiting = true → s.waiting = true) (hhalted : t.halted = s.halted)
    (hdisp : t.disp = s.disp) : t.Inv where
  memory := hmem
  profile hp := hhires.trans (hinv.profile (hprofile.symm.trans hp))
  suspension := fun ⟨hw, hh⟩ => hinv.suspension ⟨hwaiting hw, hhalted.symm.trans hh⟩
  offView hlow := by
    rw [hdisp]
    exact hinv.offView (hhires.symm.trans hlow)

/-- Settles O53: a no-op and a report leave the parts that the invariants speak of, and every executor keeps them. -/
theorem stepKeepsTheInvariant : Obligations.StepKeepsTheInvariant := by
  intro s t hinv h
  rcases step_cases h with ⟨-, rfl⟩ | ⟨-, why, -, rfl⟩ | ⟨hrun, i, -, hexec⟩
  · exact hinv
  · exact inv_of_agree hinv hinv.memory rfl rfl id rfl rfl
  · exact inv_exec (s := s.advancePc) (inv_of_agree hinv hinv.memory rfl rfl id rfl rfl) hrun hexec

/-! ### The host's commands -/

/-- A reset display reads 0 everywhere. -/
theorem cell_resetTo (p : Profile) (c r : Nat) : (State.resetTo p).disp.cell c r = false := Display.cell_blank c r

/-- Settles O52: every part that the invariants speak of is 0 or empty after Reset. -/
theorem resetMeetsTheInvariant : Obligations.ResetMeetsTheInvariant := by
  have inv_resetTo (p : Profile) : (State.resetTo p).Inv := ⟨rfl, fun _ => rfl, nofun, fun _ c r _ => cell_resetTo p c r⟩
  exact fun p => ⟨inv_resetTo p, inv_resetTo .schip⟩

/-- An image that fits is written from 0x200 on (70_reset_and_hazards.md R322). -/
theorem loadRom_of_fits (s : State) {image : List Byte} (h : image.length ≤ 3584) :
    s.loadRom image = { s with mem := s.mem.writeFrom romOrigin image } :=
  if_pos ((loadSucceeds_iff image).2 h)

/-- An image that does not fit is reported. -/
theorem loadRom_of_too_long (s : State) {image : List Byte} (h : 3584 < image.length) :
    s.loadRom image = s.report (.loadTooLarge image.length) :=
  if_neg fun hload => absurd ((loadSucceeds_iff image).1 hload) (by omega)

/-- KeyUp on a core that does not wait releases the key (60_exceptions.md R293). -/
theorem keyUp_of_not_waiting {s : State} (k : Reg) (h : s.waiting = false) : s.keyUp k = s.setKey k false := by
  simp [State.keyUp, h]

/-- KeyUp on a waiting core also ends the wait with the key's value. -/
theorem keyUp_of_waiting {s : State} (k : Reg) (h : s.waiting = true) :
    s.keyUp k = ((s.setKey k false).setV s.waitReg (keyByte k)).setWaiting false := by
  simp [State.keyUp, h]

/-- LoadRom keeps the invariants: an image that loads ends by address 4096. -/
theorem inv_loadRom {s : State} (image : List Byte) (hinv : s.Inv) : (s.loadRom image).Inv := by
  by_cases h : image.length ≤ 3584
  · rw [loadRom_of_fits s h]
    have hwf := Memory.wf_writeFrom s.mem romOrigin image (by simp only [romOrigin]; omega) hinv.memory
    exact inv_of_agree hinv hwf rfl rfl id rfl rfl
  · rw [loadRom_of_too_long s (by omega)]
    exact inv_of_agree hinv hinv.memory rfl rfl id rfl rfl

/-- KeyUp keeps the invariants: it can only end a wait. -/
theorem inv_keyUp {s : State} (k : Reg) (hinv : s.Inv) : (s.keyUp k).Inv := by
  cases hw : s.waiting with
  | false =>
    rw [keyUp_of_not_waiting k hw]
    exact inv_of_agree hinv hinv.memory rfl rfl id rfl rfl
  | true =>
    rw [keyUp_of_waiting k hw]
    exact inv_of_agree hinv hinv.memory rfl rfl nofun rfl rfl

/-- Each command completes and keeps the invariants. -/
theorem inv_command {s : State} (c : Command) (hinv : s.Inv) : ∃ t, command c s = .next t ∧ t.Inv := by
  cases c with
  | reset p => exact ⟨_, rfl, inv_of_agree (resetMeetsTheInvariant p).1 rfl rfl rfl id rfl rfl⟩
  | loadRom image => exact ⟨_, rfl, inv_loadRom image hinv⟩
  | step =>
    obtain ⟨t, ht⟩ := stepNeverStops s
    exact ⟨t, ht, stepKeepsTheInvariant s t hinv ht⟩
  | tick | keyDown _ | ackDisplay => exact ⟨_, rfl, inv_of_agree hinv hinv.memory rfl rfl id rfl rfl⟩
  | keyUp k => exact ⟨_, rfl, inv_keyUp k hinv⟩

/-- Settles O54: each command completes and keeps the invariants, so a list of them does, by induction on it. -/
theorem hostCommandsKeepTheInvariant : Obligations.HostCommandsKeepTheInvariant := by
  intro cs
  induction cs with
  | nil => exact fun s hinv => ⟨s, rfl, hinv⟩
  | cons c cs ih =>
    intro s hinv
    obtain ⟨t, ht, htinv⟩ := inv_command c hinv
    obtain ⟨u, hu, huinv⟩ := ih t htinv
    exact ⟨u, by rw [commands, ht]; exact hu, huinv⟩

end Sys2Proof.Proofs
end

section
/-! What no instruction reads (10_state.md sections 3, 5): the sound timer, and the stack entries not in use. -/

namespace Sys2Proof.Proofs

open Sys2Proof Sys2Proof.Machine Sys2Proof.Claims

/-- The state with other values in ST and in the stack. -/
def withUnread (v : Byte) (k : Vector Word 16) (s : State) : State := { s with ST := v, stack := k }

section
variable (v : Byte) (k : Vector Word 16) (s : State)

/-! ### The shared operations read neither ST nor the stack -/

theorem skipIf_withUnread (cond : Bool) : (withUnread v k s).skipIf cond = withUnread v k (s.skipIf cond) := by
  cases cond <;> rfl

theorem setLogic_withUnread (x : Reg) (result : Byte) :
    (withUnread v k s).setLogic x result = withUnread v k (s.setLogic x result) := by
  rw [setLogic_eq, setLogic_eq]
  rfl

theorem storeRegs_withUnread (rs : List Reg) : (withUnread v k s).storeRegs rs = withUnread v k (s.storeRegs rs) :=
  List.foldl_hom (withUnread v k) fun _ _ => rfl

theorem loadRegs_withUnread (rs : List Reg) : (withUnread v k s).loadRegs rs = withUnread v k (s.loadRegs rs) :=
  List.foldl_hom (withUnread v k) fun _ _ => rfl

theorem saveFlags_withUnread (rs : List Reg) : (withUnread v k s).saveFlags rs = withUnread v k (s.saveFlags rs) :=
  List.foldl_hom (withUnread v k) fun _ _ => rfl

theorem restoreFlags_withUnread (rs : List Reg) :
    (withUnread v k s).restoreFlags rs = withUnread v k (s.restoreFlags rs) :=
  List.foldl_hom (withUnread v k) fun _ _ => rfl

theorem runBlit_withUnread (b : Blit) : (withUnread v k s).runBlit b = withUnread v k (s.runBlit b) := by
  simp only [State.runBlit]
  generalize b.apply = f
  rfl

theorem draw_withUnread (x y : Reg) (n : Nibble) : (withUnread v k s).draw x y n = withUnread v k (s.draw x y n) :=
  runBlit_withUnread v k s (s.blit x y n)

end

/-- An instruction that writes neither ST nor sp gives the same result whatever ST and the stack hold. -/
theorem exec_withUnread {i : Instr} {s t : State} (v : Byte) (k : Vector Word 16) (h : exec i s = .next t)
    (hST : writes .ST i = false) (hsp : writes .sp i = false) :
    exec i (withUnread v k s) = .next (withUnread v k t) := by
  cases i with
  | ldSTVx _ => exact Bool.noConfusion hST
  | call _ | ret => exact Bool.noConfusion hsp
  | seImm _ _ | sneImm _ _ | seReg _ _ | sneReg _ _ | skp _ | sknp _ =>
    obtain rfl := Host.Outcome.next.inj h
    rw [← skipIf_withUnread]
    rfl
  | orReg _ _ | andReg _ _ | xorReg _ _ =>
    obtain rfl := Host.Outcome.next.inj h
    rw [← setLogic_withUnread]
    rfl
  | ldMemVx _ =>
    obtain rfl := Host.Outcome.next.inj h
    exact congrArg (fun u : State => Host.Outcome.next (u.setI _)) (storeRegs_withUnread v k s _)
  | ldVxMem _ =>
    obtain rfl := Host.Outcome.next.inj h
    exact congrArg (fun u : State => Host.Outcome.next (u.setI _)) (loadRegs_withUnread v k s _)
  | ldRVx _ =>
    obtain rfl := Host.Outcome.next.inj h
    exact congrArg Host.Outcome.next (saveFlags_withUnread v k s _)
  | ldVxR _ =>
    obtain rfl := Host.Outcome.next.inj h
    exact congrArg Host.Outcome.next (restoreFlags_withUnread v k s _)
  | drwBig x y =>
    obtain rfl := Host.Outcome.next.inj h
    exact congrArg Host.Outcome.next (draw_withUnread v k s x y 0)
  | drw x y n =>
    obtain rfl := Host.Outcome.next.inj h
    exact congrArg Host.Outcome.next (draw_withUnread v k s x y n)
  | high =>
    rcases high_cases h with ⟨hp, rfl⟩ | ⟨hp, rfl⟩
    · exact exec_high_of_schip (s := withUnread v k s) hp
    · exact exec_high_of_chip8 (s := withUnread v k s) hp
  | addI x =>
    rcases addI_cases h with ⟨hp, rfl⟩ | ⟨hp, rfl⟩
    · exact exec_addI_of_schip (s := withUnread v k s) x hp
    · exact exec_addI_of_chip8 (s := withUnread v k s) x hp
  | _ =>
    obtain rfl := Host.Outcome.next.inj h
    rfl

/-- An instruction that writes no stack entry leaves the stack. -/
theorem stack_exec {i : Instr} {s t : State} (h : exec i s = .next t) (hi : ∀ j, writes (.stack j) i = false) :
    t.stack = s.stack :=
  Vector.ext fun j hj => everyPartHasOnlyItsNamedWriters i s t (.stack ⟨j, hj⟩) h (hi ⟨j, hj⟩)

/-! ### The sound timer -/

/-- Every instruction gives the same result, but for ST, whatever ST holds. -/
theorem exec_withST {i : Instr} {s t : State} (v : Byte) (h : exec i s = .next t) :
    ∃ u, exec i { s with ST := v } = .next u ∧ u = { t with ST := u.ST } := by
  cases i with
  | ldSTVx x =>
    obtain rfl := Host.Outcome.next.inj h
    exact ⟨_, rfl, rfl⟩
  | call nnn =>
    rcases call_cases h with ⟨hsp, rfl⟩ | ⟨hsp, rfl⟩
    · exact ⟨_, exec_call_of_lt (s := { s with ST := v }) nnn hsp, rfl⟩
    · exact ⟨_, exec_call_of_full (s := { s with ST := v }) nnn hsp, rfl⟩
  | ret =>
    rcases ret_cases h with ⟨hsp, rfl⟩ | ⟨hsp, rfl⟩
    · exact ⟨_, exec_ret_of_pos (s := { s with ST := v }) hsp, rfl⟩
    · exact ⟨_, exec_ret_of_empty (s := { s with ST := v }) hsp, rfl⟩
  | _ =>
    refine ⟨_, exec_withUnread v s.stack h (by rfl) (by rfl), ?_⟩
    rw [← stack_exec h fun _ => by rfl]
    rfl

/-- Settles O57: neither the suspension test nor the fetch reads ST, and no executor does. -/
theorem soundTimerIsNeverRead : Obligations.SoundTimerIsNeverRead := by
  intro s t v h
  rcases step_cases h with ⟨hsusp, rfl⟩ | ⟨hrun, why, hdec, rfl⟩ | ⟨hrun, i, hdec, hexec⟩
  · exact ⟨_, step_of_suspended (s := { t with ST := v }) hsusp, rfl⟩
  · exact ⟨_, step_of_decode_unrecognized (s := { s with ST := v }) hrun hdec, rfl⟩
  · obtain ⟨u, hu, hagree⟩ := exec_withST v hexec
    exact ⟨u, (step_of_decode_instr (s := { s with ST := v }) hrun hdec).trans hu, hagree⟩

/-! ### Stack entries not in use -/

/-- Every instruction gives the same result, but for entries not in use, whatever those hold. -/
theorem exec_sameLiveStack {i : Instr} {s s' t : State} (hsame : sameLiveStack s s') (h : exec i s = .next t) :
    ∃ t', exec i s' = .next t' ∧ sameLiveStack t t' := by
  obtain ⟨hs', hlive⟩ := hsame
  generalize s'.stack = k at hs'
  subst hs'
  cases i with
  | call nnn =>
    rcases call_cases h with ⟨hsp, rfl⟩ | ⟨hsp, rfl⟩
    · refine ⟨_, exec_call_of_lt (s := { s with stack := k }) nnn hsp, rfl, fun j hj => ?_⟩
      have hj' : j.val ≠ s.sp.val → j.val < s.sp.val := fun hne => lt_of_le_of_ne (Nat.lt_succ_iff.1 hj) hne
      rw [State.getStack_setPc, State.getStack_setPc, State.getStack_pushPc, State.getStack_pushPc]
      split
      · rfl
      · exact hlive j (hj' ‹_›)
    · exact ⟨_, exec_call_of_full (s := { s with stack := k }) nnn hsp, rfl, hlive⟩
  | ret =>
    rcases ret_cases h with ⟨hsp, rfl⟩ | ⟨hsp, rfl⟩
    · have htop : k[s.sp.val - 1]'(by omega) = s.stack[s.sp.val - 1]'(by omega) :=
        hlive ⟨s.sp.val - 1, by omega⟩ (by simp; omega)
      refine ⟨_, exec_ret_of_pos (s := { s with stack := k }) hsp, ?_, fun j hj => ?_⟩
      · simp only [State.popPc, htop]
      · exact hlive j (lt_of_lt_of_le hj (Nat.sub_le _ _))
    · exact ⟨_, exec_ret_of_empty (s := { s with stack := k }) hsp, rfl, hlive⟩
  | ldSTVx x =>
    obtain rfl := Host.Outcome.next.inj h
    exact ⟨_, rfl, rfl, hlive⟩
  | _ =>
    have hST : t.ST = s.ST := everyPartHasOnlyItsNamedWriters _ s t .ST h (by rfl)
    have hsp : t.sp = s.sp := everyPartHasOnlyItsNamedWriters _ s t .sp h (by rfl)
    have hstack : t.stack = s.stack := stack_exec h fun _ => by rfl
    refine ⟨_, exec_withUnread s.ST k h (by rfl) (by rfl), ?_, fun j hj => ?_⟩
    · rw [← hST]
      rfl
    · rw [hsp] at hj
      exact (hlive j hj).trans (congrArg (·[j.val]) hstack).symm

/-- Settles O58: neither the suspension test nor the fetch reads the stack, and no executor reads a dead entry. -/
theorem deadStackEntriesAreNeverRead : Obligations.DeadStackEntriesAreNeverRead := by
  intro s s' t ⟨hs', hlive⟩ h
  generalize s'.stack = k at hs'
  subst hs'
  rcases step_cases h with ⟨hsusp, rfl⟩ | ⟨hrun, why, hdec, rfl⟩ | ⟨hrun, i, hdec, hexec⟩
  · exact ⟨_, step_of_suspended (s := { t with stack := k }) hsusp, rfl, hlive⟩
  · exact ⟨_, step_of_decode_unrecognized (s := { s with stack := k }) hrun hdec, rfl, hlive⟩
  · have hadv : sameLiveStack s.advancePc { s.advancePc with stack := k } := ⟨rfl, hlive⟩
    obtain ⟨t', ht', hsame⟩ := exec_sameLiveStack hadv hexec
    exact ⟨t', (step_of_decode_instr (s := { s with stack := k }) hrun hdec).trans ht', hsame⟩

end Sys2Proof.Proofs
end

section
/-! Control flow (40_control_flow.md): the call stack, the other skips, and the computed jump. -/

namespace Sys2Proof.Proofs

open Sys2Proof Sys2Proof.Machine Sys2Proof.Claims

/-! ### CALL and RET -/

/-- The word 2nnn is CALL nnn (40_control_flow.md R121). -/
theorem encodedAs_call (nnn : Addr) : encodedAs (0x2000 ||| nnn.setWidth 16) (.call nnn) :=
  encodedAs_of_wellFormed (formatA_eq_or 0x2 nnn) fun _ => rfl

/-- An executor finds the address its word was fetched from 2 before pc (00_scope.md R13). -/
theorem ipc_of_pc {s : State} {ipc : Word} (h : s.pc = ipc + 2) : s.ipc = ipc := by
  simp [State.ipc, h]

/-- Settles O13: CALL is a push and a jump, or one report when the stack is full. -/
theorem callPushesTheReturnAddressOrIsSuppressed : Obligations.CallPushesTheReturnAddressOrIsSuppressed := by
  intro nnn ipc s hpc
  refine ⟨encodedAs_call nnn, ?_⟩
  by_cases hsp : s.sp.val < 16
  · refine ⟨_, exec_call_of_lt nnn hsp, fun hfull => absurd hsp (by omega), fun _ => ⟨fun j hj => ?_, rfl, rfl, ?_⟩⟩
    · rw [State.getStack_setPc, State.getStack_pushPc, if_pos hj]
    · exact changesOnly_pushPc_setPc s hsp _
  · refine ⟨_, exec_call_of_full nnn hsp, fun _ => ⟨?_, changesOnly_report s _⟩, fun h => absurd h hsp⟩
    rw [ipc_of_pc hpc, (encodedAs_call nnn).1]
    rfl

/-- Settles O14: RET is a pop, or one report when the stack is empty. -/
theorem returnPopsTheReturnAddressOrIsANoOp : Obligations.ReturnPopsTheReturnAddressOrIsANoOp := by
  intro ipc s hpc
  refine ⟨⟨rfl, fun _ => rfl⟩, ?_⟩
  by_cases hsp : 0 < s.sp.val
  · refine ⟨_, exec_ret_of_pos hsp, fun h => absurd hsp (by omega), fun _ => ⟨rfl, fun j hj => ?_, ?_⟩⟩
    · simp only [State.pc_popPc, State.getStack, hj]
    · exact changesOnly_popPc s hsp
  · refine ⟨_, exec_ret_of_empty hsp, fun _ => ⟨?_, changesOnly_report s _⟩, fun h => absurd h hsp⟩
    rw [ipc_of_pc hpc]
    rfl

/-- Settles O15: RET pops the entry that CALL pushed, and sp comes back to where it was. -/
theorem returnUndoesCall : Obligations.ReturnUndoesCall := by
  intro nnn s t hsp h
  obtain rfl := Host.Outcome.next.inj ((exec_call_of_lt nnn hsp).symm.trans h)
  have hpos : 0 < ((s.pushPc hsp).setPc (zextAddr nnn)).sp.val := Nat.succ_pos _
  have hpc : (((s.pushPc hsp).setPc (zextAddr nnn)).popPc hpos).pc = s.pc := by
    simp
  have hspBack : (((s.pushPc hsp).setPc (zextAddr nnn)).popPc hpos).sp = s.sp := Fin.ext (by simp)
  refine ⟨_, exec_ret_of_pos hpos, hpc, hspBack, fun p hp => ?_⟩
  cases p with
  | stack j => exact (State.getStack_pushPc s hsp j).trans (if_neg fun hj => hp ⟨j, hj, rfl⟩)
  | pc => exact hpc
  | sp => exact hspBack
  | _ => rfl

/-! ### Skips -/

/-- The word 4xnn is SNE Vx, nn (40_control_flow.md R125). -/
theorem encodedAs_sneImm (x : Reg) (nn : Byte) : encodedAs (0x4000 ||| regAt x 8 ||| nn.setWidth 16) (.sneImm x nn) :=
  encodedAs_of_wellFormed (formatXB_eq_or 0x4 x nn) fun _ => rfl

/-- The word Ex9E is SKP Vx (40_control_flow.md R128). -/
theorem encodedAs_skp (x : Reg) : encodedAs (0xE09E ||| regAt x 8) (.skp x) :=
  encodedAs_of_wellFormed (formatXB_eq_fixed_or_regAt 0xE x 0x9E) fun _ => rfl

/-- The word ExA1 is SKNP Vx (40_control_flow.md R129). -/
theorem encodedAs_sknp (x : Reg) : encodedAs (0xE0A1 ||| regAt x 8) (.sknp x) :=
  encodedAs_of_wellFormed (formatXB_eq_fixed_or_regAt 0xE x 0xA1) fun _ => rfl

/-- A skip executes to the state with pc moved if its condition holds. -/
theorem next_skipIf (s : State) (cond : Bool) :
    (.next (s.skipIf cond) : Result) = .next { s with pc := if cond then s.pc + 2 else s.pc } := by
  rw [skipIf_eq_ite]

/-- The opposite condition skips in the other case. -/
theorem next_skipIf_not (s : State) (cond : Bool) :
    (.next (s.skipIf !cond) : Result) = .next { s with pc := if cond then s.pc else s.pc + 2 } := by
  rw [skipIf_eq_ite]
  cases cond <;> rfl

/-- SNE Vx, nn is a skip on the opposite of equality. -/
theorem exec_sneImm (x : Reg) (nn : Byte) (s : State) :
    exec (.sneImm x nn) s = .next (s.skipIf !(s.getV x == nn)) := rfl

/-- SE Vx, Vy is a skip on equality. -/
theorem exec_seReg (x y : Reg) (s : State) : exec (.seReg x y) s = .next (s.skipIf (s.getV x == s.getV y)) := rfl

/-- SNE Vx, Vy is a skip on the opposite of equality. -/
theorem exec_sneReg (x y : Reg) (s : State) : exec (.sneReg x y) s = .next (s.skipIf !(s.getV x == s.getV y)) := rfl

/-- Settles O17: each is a skip, on equality or on its opposite. -/
theorem skipsOfTheOtherComparisons : Obligations.SkipsOfTheOtherComparisons := by
  intro x y nn n p s
  refine ⟨encodedAs_sneImm x nn, ?_, decode_5xyn p x y n, ?_, decode_9xyn p x y n, ?_⟩
  · simpa only [exec_sneImm, beq_iff_eq] using next_skipIf_not s (s.getV x == nn)
  · simpa only [exec_seReg, beq_iff_eq] using next_skipIf s (s.getV x == s.getV y)
  · simpa only [exec_sneReg, beq_iff_eq] using next_skipIf_not s (s.getV x == s.getV y)

/-- Settles O18: each is a skip, on the key of V[x]'s low nibble or on its opposite. -/
theorem skipsOnAKey : Obligations.SkipsOnAKey := by
  intro x k s hk
  obtain rfl : lowNibble (s.getV x) = k := Fin.ext ((val_lowNibble _).trans hk.symm)
  exact ⟨encodedAs_skp x, next_skipIf s _, encodedAs_sknp x, next_skipIf_not s _⟩

/-! ### The computed jump -/

/-- The word Bnnn is JP V0, nnn (40_control_flow.md R130). -/
theorem encodedAs_jpOff (nnn : Addr) : encodedAs (0xB000 ||| nnn.setWidth 16) (.jpOff nnn) :=
  encodedAs_of_wellFormed (formatA_eq_or 0xB nnn) fun _ => rfl

/-- A 12-bit address and a byte add up without a wrap of the 16-bit pc. -/
theorem toNat_zextAddr_add_zextByte (nnn : Addr) (b : Byte) :
    (zextAddr nnn + zextByte b).toNat = nnn.toNat + b.toNat := by
  have hnnn := nnn.isLt
  have hb := b.isLt
  simp only [zextAddr, zextByte, BitVec.toNat_add, BitVec.toNat_setWidth]
  omega

/-- Under SCHIP the register is the address's top digit. -/
theorem val_jumpReg_schip (nnn : Addr) : (jumpReg .schip nnn).val = nnn.toNat / 256 := by
  have hnnn := nnn.isLt
  have hval : (jumpReg .schip nnn).val = (nnn.extractLsb' 8 4).toNat := rfl
  rw [hval, BitVec.extractLsb'_toNat, Nat.shiftRight_eq_div_pow]
  omega

/-- Settles O19: the jump adds the register that the profile selects, and writes pc alone. -/
theorem computedJumpAddsTheProfilesRegister : Obligations.ComputedJumpAddsTheProfilesRegister := by
  intro nnn x s hx
  refine ⟨encodedAs_jpOff nnn, _, rfl, fun hp => ?_, fun hp => ?_, changesOnly_setPc s _⟩
  · rw [State.pc_setPc, toNat_zextAddr_add_zextByte, hp]
    rfl
  · obtain rfl : jumpReg .schip nnn = x := Fin.ext ((val_jumpReg_schip nnn).trans hx.symm)
    rw [State.pc_setPc, toNat_zextAddr_add_zextByte, hp]

end Sys2Proof.Proofs
end

section
/-! Arithmetic, logic, random, timers and I arithmetic (41_arithmetic.md; 43_memory_timer_input.md sections 1, 3). -/

namespace Sys2Proof.Proofs

open Sys2Proof Sys2Proof.Machine Sys2Proof.Claims

/-! ### Words -/

/-- A word of format XY with its two fixed digits together and the registers after them, as family 8's rules write it. -/
theorem formatXY_eq_fixed_or_regAt (op : Nibble) (x y : Reg) (n : Nibble) :
    formatXY op x y n = (op.setWidth 16 <<< 12 ||| n.setWidth 16) ||| regAt x 8 ||| regAt y 4 := by
  rw [formatXY_eq_or, BitVec.or_assoc, BitVec.or_comm (regAt y 4), ← BitVec.or_assoc, BitVec.or_assoc _ (regAt x 8),
    BitVec.or_comm (regAt x 8), ← BitVec.or_assoc]

/-- The word 7xnn is ADD Vx, nn (41_arithmetic.md R162). -/
theorem encodedAs_addImm (x : Reg) (nn : Byte) : encodedAs (0x7000 ||| regAt x 8 ||| nn.setWidth 16) (.addImm x nn) :=
  encodedAs_of_wellFormed (formatXB_eq_or 0x7 x nn) fun _ => rfl

/-- The word Cxnn is RND Vx, nn (41_arithmetic.md R176). -/
theorem encodedAs_rnd (x : Reg) (nn : Byte) : encodedAs (0xC000 ||| regAt x 8 ||| nn.setWidth 16) (.rnd x nn) :=
  encodedAs_of_wellFormed (formatXB_eq_or 0xC x nn) fun _ => rfl

/-- The word 8xyn is the instruction that the encoder gives the digit n. -/
theorem encodedAs_alu {x y : Reg} {i : Instr} (n : Nibble) (henc : encode i = formatXY 0x8 x y n)
    (hwf : ∀ p, i.wellFormed p = true) :
    encodedAs ((0x8 : Nibble).setWidth 16 <<< 12 ||| n.setWidth 16 ||| regAt x 8 ||| regAt y 4) i :=
  encodedAs_of_wellFormed (henc.trans (formatXY_eq_fixed_or_regAt 0x8 x y n)) hwf

/-- The word Fxnn is the instruction that the encoder gives the function byte nn. -/
theorem encodedAs_misc {x : Reg} {i : Instr} (nn : Byte) (henc : encode i = formatXB 0xF x nn)
    (hwf : ∀ p, i.wellFormed p = true) :
    encodedAs ((0xF : Nibble).setWidth 16 <<< 12 ||| nn.setWidth 16 ||| regAt x 8) i :=
  encodedAs_of_wellFormed (henc.trans (formatXB_eq_fixed_or_regAt 0xF x nn)) hwf

/-! ### Immediates, loads and random -/

/-- Settles O22: each is one register write, and the 8-bit sum wraps. -/
theorem immediateAddAndRegisterLoadWriteOneRegister : Obligations.ImmediateAddAndRegisterLoadWriteOneRegister := by
  intro x y nn s
  refine ⟨encodedAs_addImm x nn, ⟨_, rfl, ?_, changesOnly_setV s x _⟩, encodedAs_alu 0x0 rfl fun _ => rfl,
    ⟨_, rfl, State.getV_setV_same s x _, changesOnly_setV s x _⟩⟩
  rw [State.getV_setV_same, BitVec.toNat_add]

/-- Settles O28: one register write of the masked draw, and the counter's advance. -/
theorem randomIsAMaskedFreshDraw : Obligations.RandomIsAMaskedFreshDraw := by
  intro x nn s
  refine ⟨encodedAs_rnd x nn, _, rfl, State.getV_setV_same s x _, rfl, ?_⟩
  exact changesOnly_trans (changesOnly_mono (fun _ => .inl) (changesOnly_setV s x _))
    (changesOnly_mono (fun _ => .inr) (changesOnly_countDraw _))

/-! ### Result, then flag (41_arithmetic.md R160) -/

/-- An executor that ends in the shared result-and-flag write does what the family's rules say of it. -/
theorem writesResultThenFlag_of_exec {i : Instr} {x : Reg} {result flag : Byte} {s : State}
    (h : exec i s = .next (s.setResultFlag x result flag)) : writesResultThenFlag i x result flag s := by
  refine ⟨_, h, ?_, fun hx => ?_, changesOnly_setResultFlag s x result flag⟩
  · rw [State.getV_setResultFlag, if_pos rfl]
  · rw [State.getV_setResultFlag, if_neg hx, if_pos rfl]

/-- A logic operation writes 0 as its flag. -/
theorem exec_of_setLogic {i : Instr} {x : Reg} {result : Byte} {s : State} (h : exec i s = .next (s.setLogic x result)) :
    exec i s = .next (s.setResultFlag x result 0) := by
  rw [h, setLogic_eq]

/-- Settles O23: each writes its result and then the flag 0. -/
theorem logicOperationsClearVF : Obligations.LogicOperationsClearVF := by
  intro x y s
  exact ⟨encodedAs_alu 0x1 rfl fun _ => rfl, writesResultThenFlag_of_exec (exec_of_setLogic rfl),
    encodedAs_alu 0x2 rfl fun _ => rfl, writesResultThenFlag_of_exec (exec_of_setLogic rfl),
    encodedAs_alu 0x3 rfl fun _ => rfl, writesResultThenFlag_of_exec (exec_of_setLogic rfl)⟩

/-- The low 8 bits of the sum. -/
theorem add_eq_ofNat (a b : Byte) : a + b = BitVec.ofNat 8 (a.toNat + b.toNat) := by
  apply BitVec.eq_of_toNat_eq
  rw [BitVec.toNat_add, BitVec.toNat_ofNat]

/-- The difference, kept positive by 256. -/
theorem sub_eq_ofNat (a b : Byte) : a - b = BitVec.ofNat 8 (a.toNat + 256 - b.toNat) := by
  have hb := b.isLt
  apply BitVec.eq_of_toNat_eq
  rw [BitVec.toNat_sub, BitVec.toNat_ofNat]
  omega

theorem flagByte_decide (c : Prop) [Decidable c] : flagByte (decide c) = if c then 1 else 0 := by
  simp only [flagByte, decide_eq_true_eq]

/-- Settles O24: the result is the wrapped sum, the flag its carry. -/
theorem addSetsTheCarry : Obligations.AddSetsTheCarry := by
  intro x y s
  refine ⟨encodedAs_alu 0x4 rfl fun _ => rfl, writesResultThenFlag_of_exec ?_⟩
  rw [← add_eq_ofNat, ← flagByte_decide]
  rfl

/-- Settles O25: the result is the wrapped difference, the flag the comparison of the same two operands. -/
theorem subtractionsSetNoBorrow : Obligations.SubtractionsSetNoBorrow := by
  intro x y s
  refine ⟨encodedAs_alu 0x5 rfl fun _ => rfl, writesResultThenFlag_of_exec ?_,
    encodedAs_alu 0x7 rfl fun _ => rfl, writesResultThenFlag_of_exec ?_⟩ <;>
  · rw [← sub_eq_ofNat, ← flagByte_decide]
    rfl

/-! ### Shifts -/

theorem ushiftRight_one_eq_ofNat (b : Byte) : b >>> 1 = BitVec.ofNat 8 (b.toNat / 2) := by
  revert b; decide

theorem shiftLeft_one_eq_ofNat (b : Byte) : b <<< 1 = BitVec.ofNat 8 (b.toNat * 2) := by
  revert b; decide

theorem shrFlag_eq_ofNat (b : Byte) : shrFlag b = BitVec.ofNat 8 (b.toNat % 2) := by
  revert b; decide

theorem shlFlag_eq_ofNat (b : Byte) : shlFlag b = BitVec.ofNat 8 (b.toNat / 128) := by
  revert b; decide

/-- Settles O26: the profile selects the source; its shift is the result and the bit shifted out the flag. -/
theorem shiftsUseTheProfilesSource : Obligations.ShiftsUseTheProfilesSource := by
  intro x y s src hschip hchip8
  obtain rfl : s.shiftSource x y = src := by
    cases hp : s.profile with
    | schip => simp [State.shiftSource, hp, hschip hp]
    | chip8 => simp [State.shiftSource, hp, hchip8 hp]
  refine ⟨encodedAs_alu 0x6 rfl fun _ => rfl, writesResultThenFlag_of_exec ?_,
    encodedAs_alu 0xE rfl fun _ => rfl, writesResultThenFlag_of_exec ?_⟩
  · rw [← ushiftRight_one_eq_ofNat, ← shrFlag_eq_ofNat]
    rfl
  · rw [← shiftLeft_one_eq_ofNat, ← shlFlag_eq_ofNat]
    rfl

/-! ### Timers and I -/

/-- Settles O38: each is one write, of V[x], DT or ST. -/
theorem timerTransfers : Obligations.TimerTransfers := by
  intro x s
  exact ⟨encodedAs_misc 0x07 rfl fun _ => rfl, ⟨_, rfl, State.getV_setV_same s x _, changesOnly_setV s x _⟩,
    encodedAs_misc 0x15 rfl fun _ => rfl, ⟨_, rfl, rfl, changesOnly_setDT s _⟩,
    encodedAs_misc 0x18 rfl fun _ => rfl, ⟨_, rfl, rfl, changesOnly_setST s _⟩⟩

/-- I plus a byte, in 16 bits. -/
theorem toNat_add_zextByte (a : Word) (b : Byte) : (a + zextByte b).toNat = (a.toNat + b.toNat) % 65536 := by
  have hb := b.isLt
  rw [zextByte, BitVec.toNat_add, BitVec.toNat_setWidth, Nat.mod_eq_of_lt (a := b.toNat) (by omega)]

/-- Settles O41: one write of I, and under SCHIP one of VF after it. -/
theorem addIndexSetsVFUnderSchipOnly : Obligations.AddIndexSetsVFUnderSchipOnly := by
  intro x s
  refine ⟨encodedAs_misc 0x1E rfl fun _ => rfl, ?_⟩
  cases hp : s.profile with
  | chip8 => exact ⟨_, exec_addI_of_chip8 x hp, toNat_add_zextByte _ _, fun _ => changesOnly_setI s _, nofun⟩
  | schip =>
    refine ⟨_, exec_addI_of_schip x hp, toNat_add_zextByte _ _, nofun, fun _ => ⟨?_, ?_⟩⟩
    · rw [State.getV_setV_same, indexFlag, flagByte_decide]
    · exact changesOnly_trans (changesOnly_mono (fun _ => .inl) (changesOnly_setI s _))
        (changesOnly_mono (fun _ => .inr) (changesOnly_setV _ VF _))

/-- A high-resolution glyph starts 10 bytes after the one before it, from 0x50 on. -/
theorem toNat_hiresGlyph (digit : Reg) : (hiresGlyph digit).toNat = 0x50 + 10 * digit.val := by
  have hdigit := digit.isLt
  rw [hiresGlyph, hiresBase, BitVec.toNat_ofNat]
  omega

/-- Settles O43: LD HF, Vx writes the glyph's address to I, and that write leaves the rest. -/
theorem highResolutionGlyphAddress : Obligations.HighResolutionGlyphAddress := by
  intro x s
  refine ⟨encodedAs_misc 0x30 rfl fun _ => rfl, _, rfl, ?_, changesOnly_setI s _⟩
  rw [State.I_setI, toNat_hiresGlyph, val_lowNibble]

end Sys2Proof.Proofs
end

section
/-! Memory: BCD, block transfers, flags storage (43_memory_timer_input.md sections 4, 5), stores that are fetched
(20_memory.md section 6), and the canonical form (20_memory.md section 2). -/

namespace Sys2Proof.Proofs

open Sys2Proof Sys2Proof.Machine Sys2Proof.Claims

/-! ### BCD -/

theorem toNat_hundreds (v : Byte) : (hundreds v).toNat = v.toNat / 100 := by
  have hv := v.isLt
  rw [hundreds, BitVec.toNat_ofNat]
  omega

theorem toNat_tens (v : Byte) : (tens v).toNat = v.toNat / 10 % 10 := by
  rw [tens, BitVec.toNat_ofNat]
  omega

theorem toNat_units (v : Byte) : (units v).toNat = v.toNat % 10 := by
  rw [units, BitVec.toNat_ofNat]
  omega

/-- The state after LD B, Vx: the three writes, in order. -/
def bcdStored (x : Reg) (s : State) : State :=
  ((s.memWrite (s.indexPlus 0) (hundreds (s.getV x))).memWrite (s.indexPlus 1) (tens (s.getV x))).memWrite
    (s.indexPlus 2) (units (s.getV x))

theorem exec_ldB (x : Reg) (s : State) : exec (.ldB x) s = .next (bcdStored x s) := rfl

/-- What every address reads after LD B, Vx. -/
theorem read_bcdStored (x : Reg) (s : State) (a : Nat) (hwf : s.mem.wf = true) :
    (bcdStored x s).mem.read a =
      if a = effAddr (s.indexPlus 2) then units (s.getV x)
      else if a = effAddr (s.indexPlus 1) then tens (s.getV x)
      else if a = effAddr (s.indexPlus 0) then hundreds (s.getV x)
      else s.mem.read a := by
  have hwf0 := State.wf_memWrite s (s.indexPlus 0) (hundreds (s.getV x)) hwf
  have hwf1 := State.wf_memWrite _ (s.indexPlus 1) (tens (s.getV x)) hwf0
  rw [bcdStored, State.mem_memWrite, Memory.read_write _ _ _ _ hwf1, State.mem_memWrite, Memory.read_write _ _ _ _ hwf0,
    State.mem_memWrite, Memory.read_write _ _ _ _ hwf]

/-- Settles O44: the three digits go to three different addresses. -/
theorem bcdStoresTheDecimalDigits : Obligations.BcdStoresTheDecimalDigits := by
  intro x s hwf
  have h01 : effAddr (s.indexPlus 0) ≠ effAddr (s.indexPlus 1) :=
    fun he => absurd (s.effAddr_indexPlus_inj (i := 0) (j := 1) he) (by decide)
  have h02 : effAddr (s.indexPlus 0) ≠ effAddr (s.indexPlus 2) :=
    fun he => absurd (s.effAddr_indexPlus_inj (i := 0) (j := 2) he) (by decide)
  have h12 : effAddr (s.indexPlus 1) ≠ effAddr (s.indexPlus 2) :=
    fun he => absurd (s.effAddr_indexPlus_inj (i := 1) (j := 2) he) (by decide)
  refine ⟨encodedAs_misc 0x33 rfl fun _ => rfl, _, exec_ldB x s, ?_, ?_, ?_, ?_⟩
  · rw [read_bcdStored x s _ hwf, if_neg h02, if_neg h01, if_pos rfl, toNat_hundreds]
  · rw [read_bcdStored x s _ hwf, if_neg h12, if_pos rfl, toNat_tens]
  · rw [read_bcdStored x s _ hwf, if_pos rfl, toNat_units]
  · refine changesOnly_withMem s _ fun a ha => ?_
    have hother : ∀ k, k < 3 → a ≠ effAddr (s.indexPlus k) := fun k hk he => ha ⟨k, hk, congrArg Part.memByte he⟩
    exact (read_bcdStored x s a hwf).trans
      (by rw [if_neg (hother 2 (by decide)), if_neg (hother 1 (by decide)), if_neg (hother 0 (by decide))])

/-! ### Fx55 and Fx65 -/

/-- Under CHIP8 a transfer moves I past the last register's byte. -/
theorem toNat_indexAfterTransfer_chip8 {s : State} (x : Reg) (hp : s.profile = .chip8) :
    (s.indexAfterTransfer x).toNat = (s.I.toNat + x.val + 1) % 65536 := by
  have hx := x.isLt
  simp only [State.indexAfterTransfer, hp, State.indexPlus, BitVec.toNat_add, BitVec.toNat_ofNat]
  omega

/-- Under SCHIP a transfer leaves I. -/
theorem indexAfterTransfer_schip {s : State} (x : Reg) (hp : s.profile = .schip) : s.indexAfterTransfer x = s.I := by
  simp only [State.indexAfterTransfer, hp]

theorem exec_ldMemVx (x : Reg) (s : State) :
    exec (.ldMemVx x) s = .next ((s.storeRegs (regsUpTo x)).setI (s.indexAfterTransfer x)) := rfl

theorem exec_ldVxMem (x : Reg) (s : State) :
    exec (.ldVxMem x) s = .next ((s.loadRegs (regsUpTo x)).setI (s.indexAfterTransfer x)) := rfl

/-- A store leaves V[i] at I + i for every i up to x. -/
theorem read_of_exec_ldMemVx {x i : Reg} {s t : State} (hwf : s.mem.wf = true) (h : exec (.ldMemVx x) s = .next t)
    (hi : i ≤ x) : t.mem.read (effAddr (s.indexPlus i.val)) = s.getV i := by
  obtain rfl := Host.Outcome.next.inj ((exec_ldMemVx x s).symm.trans h)
  exact State.read_storeRegs_own s _ i hwf ((mem_regsUpTo i x).2 hi)

/-- A load gives V[i] the byte at I + i for every i up to x. -/
theorem getV_of_exec_ldVxMem {x i : Reg} {s t : State} (h : exec (.ldVxMem x) s = .next t) (hi : i ≤ x) :
    t.getV i = s.mem.read (effAddr (s.indexPlus i.val)) := by
  obtain rfl := Host.Outcome.next.inj ((exec_ldVxMem x s).symm.trans h)
  exact (State.getV_loadRegs s _ i).trans (if_pos ((mem_regsUpTo i x).2 hi))

/-- Settles O45: the store of the registers up to x, and one write of I. -/
theorem storeRegistersWritesV0ToVx : Obligations.StoreRegistersWritesV0ToVx := by
  intro x s hwf
  refine ⟨encodedAs_misc 0x55 rfl fun _ => rfl, _, exec_ldMemVx x s, fun i hi => ?_,
    toNat_indexAfterTransfer_chip8 x, indexAfterTransfer_schip x, ?_⟩
  · exact read_of_exec_ldMemVx hwf (exec_ldMemVx x s) hi
  · refine changesOnly_trans (changesOnly_mono ?_ (changesOnly_storeRegs s _ hwf))
      (changesOnly_mono (fun _ => .inr) (changesOnly_setI _ _))
    rintro _ ⟨i, hi, rfl⟩
    exact .inl ⟨i, (mem_regsUpTo i x).1 hi, rfl⟩

/-- Settles O46: the load of the registers up to x, and one write of I. -/
theorem loadRegistersReadsV0ToVx : Obligations.LoadRegistersReadsV0ToVx := by
  intro x s
  refine ⟨encodedAs_misc 0x65 rfl fun _ => rfl, _, exec_ldVxMem x s, fun i hi => ?_,
    toNat_indexAfterTransfer_chip8 x, indexAfterTransfer_schip x, ?_⟩
  · exact getV_of_exec_ldVxMem (exec_ldVxMem x s) hi
  · refine changesOnly_trans (changesOnly_mono ?_ (changesOnly_loadRegs s _))
      (changesOnly_mono (fun _ => .inr) (changesOnly_setI _ _))
    rintro _ ⟨i, hi, rfl⟩
    exact .inl ⟨i, (mem_regsUpTo i x).1 hi, rfl⟩

/-- Settles O47: the load reads each address that the store wrote, since memory and I are the same. -/
theorem storeThenLoadRestoresTheRegisters : Obligations.StoreThenLoadRestoresTheRegisters := by
  intro x s t u v hwf hstore hmem hI hload i hi
  have haddr : u.indexPlus i.val = s.indexPlus i.val := congrArg (· + BitVec.ofNat 16 i.val) hI
  rw [getV_of_exec_ldVxMem hload hi, haddr, hmem, read_of_exec_ldMemVx hwf hstore hi]

/-- Settles O59: the two bytes at pc are the stored registers, so the step decodes their word. -/
theorem storedBytesAreFetched : Obligations.StoredBytesAreFetched := by
  intro x s t hwf hstore hw hh i j hi hj hhi hlo k hdec
  have hword : wordAtPc t = wordOfBytes (s.getV i) (s.getV j) := by
    rw [← read_of_exec_ldMemVx hwf hstore hi, ← read_of_exec_ldMemVx hwf hstore hj, hhi, hlo]
    rfl
  exact stepRunsTheDecodedInstruction t k hw hh (hword ▸ hdec)

/-! ### Flags storage -/

/-- Settles O48: a copy of the registers up to min(x, 7), out and back. -/
theorem flagsStorageMovesAtMostEightRegisters : Obligations.FlagsStorageMovesAtMostEightRegisters := by
  intro x s
  have hmem (i : Reg) := mem_regsUpTo_flagsLimit i x
  refine ⟨encodedAs_misc 0x75 rfl fun _ => rfl, ⟨_, rfl, fun i hx h7 => ?_, ?_⟩,
    encodedAs_misc 0x85 rfl fun _ => rfl, ⟨_, rfl, fun i hx h7 => ?_, ?_⟩⟩
  · rw [State.getFlag_saveFlags, if_pos ((hmem i).2 ⟨hx, h7⟩)]
  · refine changesOnly_mono ?_ (changesOnly_saveFlags s _)
    rintro _ ⟨i, hi, rfl⟩
    exact ⟨i, ((hmem i).1 hi).1, ((hmem i).1 hi).2, rfl⟩
  · rw [State.getV_restoreFlags, if_pos ((hmem i).2 ⟨hx, h7⟩)]
  · refine changesOnly_mono ?_ (changesOnly_restoreFlags s _)
    rintro _ ⟨i, hi, rfl⟩
    exact ⟨i, ((hmem i).1 hi).1, ((hmem i).1 hi).2, rfl⟩

/-! ### The canonical form -/

/-- An address below every listed one reads as at reset. -/
theorem read_of_lt_keys {m : Memory} {a : Nat} (h : ∀ e ∈ m, a < e.1) : m.read a = resetByte a := by
  induction m with
  | nil => rfl
  | cons e rest ih =>
    have hlt := h e (by simp)
    rw [Memory.read, if_neg (by omega)]
    exact ih fun e' he' => h e' (by simp [he'])

theorem wf_cons_iff (k : Nat) (v : Byte) (rest : Memory) :
    Memory.wf ((k, v) :: rest) = true ↔
      k < 4096 ∧ v ≠ resetByte k ∧ (∀ e ∈ rest, k < e.1) ∧ Memory.wf rest = true := by
  simp [Memory.wf, and_assoc]

/-- A memory that lists an address below every one of another's reads differently there: the listed byte is not the
reset one. -/
theorem read_ne_of_first_key {k : Nat} {v : Byte} {rest m : Memory} (hwf : Memory.wf ((k, v) :: rest) = true)
    (hm : ∀ e ∈ m, k < e.1) : Memory.read ((k, v) :: rest) k ≠ m.read k := by
  rw [Memory.read, if_pos rfl, read_of_lt_keys hm]
  exact ((wf_cons_iff k v rest).1 hwf).2.1

/-- Settles O60: by induction on the lists, whose first addresses cannot differ, for the lower one would read
differently in the two. -/
theorem equalContentsAreEqualMemories : Obligations.EqualContentsAreEqualMemories := by
  intro m
  induction m with
  | nil =>
    intro m' _ hwf' hread
    cases m' with
    | nil => rfl
    | cons e' rest' =>
      have hk := ((wf_cons_iff e'.1 e'.2 rest').1 hwf').1
      exact absurd (hread e'.1 hk).symm (read_ne_of_first_key hwf' (by simp))
  | cons e rest ih =>
    obtain ⟨k, v⟩ := e
    intro m' hwf hwf' hread
    obtain ⟨hk, hv, hkeys, hrest⟩ := (wf_cons_iff k v rest).1 hwf
    cases m' with
    | nil => exact absurd (hread k hk) (read_ne_of_first_key hwf (by simp))
    | cons e' rest' =>
      obtain ⟨k', v'⟩ := e'
      obtain ⟨hk', hv', hkeys', hrest'⟩ := (wf_cons_iff k' v' rest').1 hwf'
      rcases lt_trichotomy k k' with hlt | rfl | hgt
      · refine absurd (hread k hk) (read_ne_of_first_key hwf ?_)
        exact List.forall_mem_cons.2 ⟨hlt, fun e he => hlt.trans (hkeys' e he)⟩
      · have hvv : v = v' := by simpa [Memory.read] using hread k hk
        have hrests : rest = rest' := by
          refine ih rest' hrest hrest' fun a ha => ?_
          by_cases hak : a = k
          · rw [hak, read_of_lt_keys hkeys, read_of_lt_keys hkeys']
          · simpa [Memory.read, hak] using hread a ha
        rw [hvv, hrests]
      · refine absurd (hread k' hk').symm (read_ne_of_first_key hwf' ?_)
        exact List.forall_mem_cons.2 ⟨hgt, fun e he => hgt.trans (hkeys e he)⟩

end Sys2Proof.Proofs
end

section
/-! The host's commands (60_exceptions.md section 4; 70_reset_and_hazards.md sections 1, 2). -/

namespace Sys2Proof.Proofs

open Sys2Proof Sys2Proof.Machine Sys2Proof.Claims

/-! ### Tick, KeyDown, KeyUp, AckDisplay -/

/-- A timer goes one down and stops at 0. -/
theorem toNat_tickTimer (b : Byte) : (tickTimer b).toNat = b.toNat - 1 := by
  revert b; decide

/-- Settles O49: each command is one or two writes, in every state. -/
theorem tickKeyDownAndAckDisplay : Obligations.TickKeyDownAndAckDisplay := by
  intro k s
  refine ⟨⟨s.tick, rfl, toNat_tickTimer _, toNat_tickTimer _, ?_⟩,
    ⟨s.keyDown k, rfl, ?_, changesOnly_setKey s k true⟩, ⟨s.ackDisplay, rfl, rfl, changesOnly_setDispChanged s false⟩⟩
  · exact changesOnly_trans (changesOnly_mono (fun _ => .inl) (changesOnly_setDT s _))
      (changesOnly_mono (fun _ => .inr) (changesOnly_setST _ _))
  · exact (State.getKey_setKey s k k true).trans (if_pos rfl)

theorem toNat_keyByte (k : Reg) : (keyByte k).toNat = k.val := by
  have hk := k.isLt
  rw [keyByte, BitVec.toNat_ofNat]
  omega

/-- Whether a wait ends or not, KeyUp releases its key. -/
theorem getKey_keyUp (s : State) (k : Reg) : (s.keyUp k).getKey k = false := by
  have hset : (s.setKey k false).getKey k = false := (State.getKey_setKey s k k false).trans (if_pos rfl)
  cases hw : s.waiting with
  | false => rw [keyUp_of_not_waiting k hw, hset]
  | true => rw [keyUp_of_waiting k hw, State.getKey_setWaiting, State.getKey_setV, hset]

/-- The end of a wait writes the key, V[wait_reg] and waiting. -/
theorem changesOnly_keyUp (s : State) (k : Reg) :
    changesOnly (fun p => p = .key k ∨ p = .reg s.waitReg ∨ p = .waiting) s (s.keyUp k) := by
  have hkey := changesOnly_mono (may' := fun p => p = .key k ∨ p = .reg s.waitReg ∨ p = .waiting) (fun _ => .inl)
    (changesOnly_setKey s k false)
  cases hw : s.waiting with
  | false => rwa [keyUp_of_not_waiting k hw]
  | true =>
    rw [keyUp_of_waiting k hw]
    exact changesOnly_trans
      (changesOnly_trans hkey (changesOnly_mono (fun _ hp => .inr (.inl hp)) (changesOnly_setV _ s.waitReg _)))
      (changesOnly_mono (fun _ hp => .inr (.inr hp)) (changesOnly_setWaiting _ false))

/-- LoadRom writes memory or the channel. -/
theorem changesOnly_loadRom (s : State) (image : List Byte) :
    changesOnly (fun p => (∃ a, p = .memByte a) ∨ p = .diag) s (s.loadRom image) := by
  by_cases h : image.length ≤ 3584
  · rw [loadRom_of_fits s h]
    exact changesOnly_withMem s _ fun a ha => absurd (.inl ⟨a, rfl⟩) ha
  · rw [loadRom_of_too_long s (by omega)]
    exact changesOnly_mono (fun _ => .inr) (changesOnly_report s _)

/-- Settles O40: one write of the key, and in a wait one of V[wait_reg] and one of waiting after it. -/
theorem keyUpReleasesTheKeyAndEndsAWait : Obligations.KeyUpReleasesTheKeyAndEndsAWait := by
  intro k s
  refine ⟨s.keyUp k, rfl, getKey_keyUp s k, fun hw => ?_, fun hw => ⟨?_, ?_, changesOnly_keyUp s k⟩⟩
  · rw [keyUp_of_not_waiting k hw]
    exact changesOnly_setKey s k false
  · rw [keyUp_of_waiting k hw, State.getV_setWaiting, State.getV_setV_same, toNat_keyByte]
  · rw [keyUp_of_waiting k hw, State.waiting_setWaiting]

/-! ### EXIT -/

/-- Every command but Reset leaves a halted core halted. -/
theorem halted_command {c : Command} {t u : State} (hh : t.halted = true) (hc : ∀ p, c ≠ .reset p)
    (h : command c t = .next u) : u.halted = true := by
  cases c with
  | reset p => exact absurd rfl (hc p)
  | step =>
    obtain rfl := Host.Outcome.next.inj ((stepIsANoOpWhileWaitingOrHalted t (.inr hh)).symm.trans h)
    exact hh
  | loadRom image =>
    obtain rfl : t.loadRom image = u := Host.Outcome.next.inj h
    exact (changesOnly_loadRom t image .halted (by simp)).trans hh
  | keyUp k =>
    obtain rfl : t.keyUp k = u := Host.Outcome.next.inj h
    exact (changesOnly_keyUp t k .halted (by simp)).trans hh
  | tick | keyDown _ | ackDisplay =>
    obtain rfl := Host.Outcome.next.inj h
    exact hh

/-- Settles O20: EXIT sets halted, which a Step respects and every command but Reset leaves. -/
theorem exitHaltsUntilReset : Obligations.ExitHaltsUntilReset := by
  refine ⟨⟨rfl, fun _ => rfl⟩, fun s => ⟨_, rfl, rfl, changesOnly_setHalted s true⟩, fun t hh => ?_⟩
  exact ⟨stepIsANoOpWhileWaitingOrHalted t (.inr hh), fun c u hc h => halted_command hh hc h, rfl, fun _ => rfl,
    fun k => ⟨t.keyUp k, rfl, getKey_keyUp t k⟩, rfl⟩

/-! ### Reset and LoadRom -/

/-- Below 0x050 unwritten memory is the low-resolution font. -/
theorem resetByte_lores {a : Nat} (h : a < 0x050) : resetByte a = loresFont.getD a 0 := if_pos h

/-- From 0x050 to 0x0EF unwritten memory is the high-resolution font. -/
theorem resetByte_hires {a : Nat} (hlo : 0x050 ≤ a) (hhi : a < 0x0F0) :
    resetByte a = hiresFont.getD (a - 0x050) 0 :=
  (if_neg (Nat.not_lt.2 hlo)).trans (if_pos hhi)

/-- From 0x0F0 on unwritten memory is 0. -/
theorem resetByte_rest {a : Nat} (h : 0x0F0 ≤ a) : resetByte a = 0 :=
  (if_neg (Nat.not_lt.2 (le_trans (show 0x050 ≤ 0x0F0 by decide) h))).trans (if_neg (Nat.not_lt.2 h))

/-- Settles O50: the reset state element by element; memory lists no byte, so every address reads as unwritten. -/
theorem resetGivesEveryElementItsValue : Obligations.ResetGivesEveryElementItsValue := by
  refine ⟨rfl, fun p s => ⟨s.resetCommand p, rfl, rfl, rfl, fun a h => resetByte_lores h,
    fun a hlo hhi => resetByte_hires hlo hhi, fun a h => resetByte_rest h, fun i => ?_, rfl, rfl, rfl, fun j => ?_,
    fun c r => cell_resetTo p c r, rfl, rfl, rfl, fun k => ?_, fun j => ?_, rfl, rfl, rfl, rfl, rfl⟩⟩
  · exact Vector.getElem_replicate i.isLt
  · exact Vector.getElem_replicate j.isLt
  · exact Vector.getElem_replicate k.isLt
  · exact Vector.getElem_replicate j.isLt

/-- Settles O51: the two lengths exclude each other, and each has its own effect. -/
theorem loadRomLoadsOrRefusesTheImage : Obligations.LoadRomLoadsOrRefusesTheImage := by
  intro image s hwf
  refine ⟨s.loadRom image, rfl, loadSucceeds_iff image, fun hfits => ?_, fun hlong => ?_⟩
  · have hread (c : Nat) := Memory.read_writeFrom s.mem romOrigin c image (by simp only [romOrigin]; omega) hwf
    rw [loadRom_of_fits s hfits]
    refine ⟨fun i hi => ?_, changesOnly_withMem s _ fun a ha => ?_⟩
    · exact (hread (romOrigin + i)).trans (by rw [if_pos (by omega), Nat.add_sub_cancel_left])
    · refine (hread a).trans (if_neg fun ⟨hlo, hhi⟩ => ha ⟨a - romOrigin, by omega, congrArg Part.memByte ?_⟩)
      simp only [romOrigin] at hlo ⊢
      omega
  · rw [loadRom_of_too_long s hlong]
    exact ⟨rfl, changesOnly_report s _⟩

end Sys2Proof.Proofs
end

section
/-! Clearing, scrolling and the resolution (42_display.md R220 to R224), and who sets disp_changed (10_state.md R28). -/

namespace Sys2Proof.Proofs

open Sys2Proof Sys2Proof.Machine Sys2Proof.Claims

/-! ### Clearing -/

/-- Settles O29: CLS shows the blank plane. -/
theorem clearScreenZeroesEveryCell : Obligations.ClearScreenZeroesEveryCell := by
  intro s
  exact ⟨⟨rfl, fun _ => rfl⟩, _, rfl, Display.cell_blank, rfl, changesOnly_setDisp_blank s⟩

/-- A switch of the resolution changes it, every cell and disp_changed. -/
theorem changesOnly_setHires_setDisp_blank (s : State) (b : Bool) :
    changesOnly (fun p => anyCell p ∨ p = .hires ∨ p = .dispChanged) s ((s.setHires b).setDisp Display.blank) :=
  changesOnly_trans (changesOnly_mono (fun _ hp => .inr (.inl hp)) (changesOnly_setHires s b))
    (changesOnly_mono (fun _ hp => hp.imp_right .inr) (changesOnly_setDisp_blank _))

/-- Settles O30: each writes hires and shows the blank plane. -/
theorem resolutionSwitchesClearTheDisplay : Obligations.ResolutionSwitchesClearTheDisplay := by
  intro s
  exact ⟨⟨rfl, fun _ => rfl⟩, ⟨_, rfl, rfl, Display.cell_blank, rfl, changesOnly_setHires_setDisp_blank s false⟩,
    rfl, rfl, ⟨.highUnderChip8, rfl⟩,
    fun hp => ⟨_, exec_high_of_schip hp, rfl, Display.cell_blank, rfl, changesOnly_setHires_setDisp_blank s true⟩⟩

/-! ### Scrolling -/

/-- The word 00Cn is SCD n (42_display.md R222). -/
theorem encodedAs_scd (n : Nibble) : encodedAs (0x00C0 ||| n.setWidth 16) (.scd n) :=
  encodedAs_of_wellFormed (append_eq_shiftLeft_or (0x00C : Addr) n) fun _ => rfl

/-- Settles O31: the scroll cell by cell, and its frame. -/
theorem scrollDownMovesRows : Obligations.ScrollDownMovesRows := by
  intro n s
  refine ⟨encodedAs_scd n, _, rfl, rfl, fun c r hc hr => ?_, changesOnly_setDisp_mapView s _⟩
  rw [State.disp_setDisp, Display.cell_scrollDown _ _ _ _ c r (planeWidth_le _) (planeHeight_le _), if_pos ⟨hc, hr⟩]

/-- Settles O32: both scrolls cell by cell, and their frames. -/
theorem sidewaysScrollsMoveColumns : Obligations.SidewaysScrollsMoveColumns := by
  intro s
  refine ⟨⟨rfl, fun _ => rfl⟩, ⟨_, rfl, rfl, fun c r hc hr => ?_, changesOnly_setDisp_mapView s _⟩,
    ⟨rfl, fun _ => rfl⟩, ⟨_, rfl, rfl, fun c r hc hr => ?_, changesOnly_setDisp_mapView s _⟩⟩
  · rw [State.disp_setDisp, Display.cell_scrollRight _ _ _ c r (planeWidth_le _) (planeHeight_le _), if_pos ⟨hc, hr⟩]
  · rw [State.disp_setDisp, Display.cell_scrollLeft _ _ _ c r (planeWidth_le _) (planeHeight_le _), if_pos ⟨hc, hr⟩]

/-! ### disp_changed -/

/-- Every display instruction available under the profile sets disp_changed. -/
theorem dispChanged_exec {i : Instr} {s t : State} (hi : writes .dispChanged i = true)
    (havail : i.availableUnder s.profile = true) (h : exec i s = .next t) : t.dispChanged = true := by
  cases i with
  | high =>
    obtain rfl := Host.Outcome.next.inj ((exec_high_of_schip (by simpa [Instr.availableUnder] using havail)).symm.trans h)
    rfl
  | drw _ _ _ | drwBig _ _ =>
    obtain rfl := Host.Outcome.next.inj h
    exact State.dispChanged_runBlit s _
  | cls | scd _ | scr | scl | low =>
    obtain rfl := Host.Outcome.next.inj h
    rfl
  | _ => exact Bool.noConfusion hi

/-- A step that found disp_changed set leaves it set. -/
theorem dispChanged_step {s t : State} (hs : s.dispChanged = true) (h : step s = .next t) : t.dispChanged = true := by
  rcases step_cases h with ⟨-, rfl⟩ | ⟨-, why, -, rfl⟩ | ⟨-, i, hdec, hexec⟩
  · exact hs
  · exact hs
  · cases hw : writes .dispChanged i with
    | false =>
      have hsame : t.dispChanged = s.advancePc.dispChanged :=
        everyPartHasOnlyItsNamedWriters i _ t .dispChanged hexec hw
      exact hsame.trans hs
    | true =>
      have hwf := (encodingADecodedWordGivesItBack _ _ i hdec).1
      rw [Instr.wellFormed, Bool.and_eq_true] at hwf
      exact dispChanged_exec (s := s.advancePc) hw hwf.2 hexec

/-- A command other than AckDisplay and Reset leaves disp_changed set. -/
theorem dispChanged_command {c : Command} {s t : State} (hs : s.dispChanged = true) (h : command c s = .next t) :
    t.dispChanged = true ∨ c = .ackDisplay ∨ ∃ p, c = .reset p := by
  cases c with
  | reset p => exact .inr (.inr ⟨p, rfl⟩)
  | ackDisplay => exact .inr (.inl rfl)
  | step => exact .inl (dispChanged_step hs h)
  | loadRom image =>
    obtain rfl : s.loadRom image = t := Host.Outcome.next.inj h
    exact .inl ((changesOnly_loadRom s image .dispChanged (by simp)).trans hs)
  | keyUp k =>
    obtain rfl : s.keyUp k = t := Host.Outcome.next.inj h
    exact .inl ((changesOnly_keyUp s k .dispChanged (by simp)).trans hs)
  | tick | keyDown _ =>
    obtain rfl := Host.Outcome.next.inj h
    exact .inl hs

/-- Settles O37: the display instructions set it, no other instruction writes it, and AckDisplay and Reset clear it. -/
theorem displayChangedIsSetByDisplayInstructionsOnly : Obligations.DisplayChangedIsSetByDisplayInstructionsOnly := by
  refine ⟨fun i s t => dispChanged_exec, fun i s t hi h => everyPartHasOnlyItsNamedWriters i s t .dispChanged h hi,
    fun c s t h hs ht => (dispChanged_command hs h).resolve_left (by simp [ht]), fun s => ⟨_, rfl, rfl⟩,
    fun p s => ⟨_, rfl, rfl⟩⟩

end Sys2Proof.Proofs
end

section
/-! Sprite draws (42_display.md R200 to R206): the pixels they flip, the rows that collide, and the loop of R200. -/

namespace Sys2Proof.Proofs

open Sys2Proof Sys2Proof.Machine Sys2Proof.Claims

/-! ### The sprite's form, rows and pixels -/

theorem spriteForm_eq (p : Profile) (n : Nibble) : spriteForm p n = { rows := formRows p n, cols := formCols p n } := by
  cases p <;> revert n <;> decide

/-- A sprite has at most 16 rows. -/
theorem formRows_le (p : Profile) (n : Nibble) : formRows p n ≤ 16 := by
  cases p <;> revert n <;> decide

theorem memRead_indexPlus (s : State) (k : Nat) : s.memRead (s.indexPlus k) = byteFromI s k := by
  rw [State.memRead, State.effAddr_indexPlus, byteFromI]

theorem indexPlus_succ (s : State) (k : Nat) : s.indexPlus k + 1 = s.indexPlus (k + 1) := by
  rw [State.indexPlus, State.indexPlus, BitVec.ofNat_add, BitVec.add_assoc]
  rfl

/-- The model's sprite row is the spec's Row(r, cols) (42_display.md R203). -/
theorem spriteRow_eq (s : State) (n : Nibble) (r : Nat) : s.spriteRow (formCols s.profile n) r = rowBits s n r := by
  simp only [State.spriteRow, rowBits, State.memRead2, indexPlus_succ, memRead_indexPlus, zextByte]

/-- The blit of Dxyn in the spec's terms. -/
theorem blit_eq (s : State) (x y : Reg) (n : Nibble) :
    s.blit x y n =
      { bits := (List.range (formRows s.profile n)).map (rowBits s n), cols := formCols s.profile n, x0 := startCol s x,
        y0 := startRow s y, w := planeWidth s.hires, h := planeHeight s.hires } := by
  simp only [State.blit, spriteForm_eq, show s.spriteRow (formCols s.profile n) = rowBits s n from funext (spriteRow_eq s n)]
  rfl

/-- The blit flips exactly the sprite's pixels. -/
theorem getLsbD_mask_blit (s : State) (x y : Reg) (n : Nibble) (c r : Nat) :
    ((s.blit x y n).mask r).getLsbD c = spritePixel s x y n c r := by
  rw [blit_eq, Blit.getLsbD_mask _ c r (planeWidth_le s.hires), spritePixel]
  simp only [List.length_map, List.length_range]
  by_cases hin : startCol s x ≤ c ∧ c < startCol s x + formCols s.profile n ∧ c < planeWidth s.hires ∧
      startRow s y ≤ r ∧ r < startRow s y + formRows s.profile n ∧ r < planeHeight s.hires
  · obtain ⟨hc, hcw, hcd, hr, hrh, hrd⟩ := hin
    have hrow : ((List.range (formRows s.profile n)).map (rowBits s n)).getD (r - startRow s y) 0 =
        rowBits s n (r - startRow s y) := by
      simp [List.getD, show r - startRow s y < formRows s.profile n by omega]
    rw [hrow]
    simp [hc, hcw, hcd, hr, hrh, hrd]
  · rw [decide_eq_false hin, decide_eq_false (by omega), Bool.false_and, Bool.false_and]

/-- Each cell after a draw (42_display.md R201). -/
theorem cell_draw (s : State) (x y : Reg) (n : Nibble) (c r : Nat) :
    (s.draw x y n).disp.cell c r = (s.disp.cell c r ^^ spritePixel s x y n c r) := by
  rw [State.draw, State.runBlit_disp, Blit.cell_apply _ _ c r (planeHeight_le s.hires), getLsbD_mask_blit]

/-- Settles O33: the blit's mask is the sprite's pixels, and its frame is the view, VF and disp_changed. -/
theorem drawFlipsExactlyTheSpritePixels : Obligations.DrawFlipsExactlyTheSpritePixels := by
  intro x y n s
  exact ⟨encodedAs_drawInstr x y n, _, exec_drawInstr x y n s, State.dispChanged_runBlit s _, cell_draw s x y n,
    changesOnly_draw s x y n⟩

/-! ### The collision value -/

theorem rowCollides_iff (s : State) (x y : Reg) (n : Nibble) (r : Nat) :
    rowCollides s x y n r = true ↔
      ∃ c, s.disp.cell c (startRow s y + r) = true ∧ spritePixel s x y n c (startRow s y + r) = true := by
  simp only [rowCollides, List.any_eq_true, List.mem_range, Bool.and_eq_true]
  constructor
  · rintro ⟨c, -, hc⟩
    exact ⟨c, hc⟩
  · rintro ⟨c, hcell, hpix⟩
    have hlt : c < 128 := by
      by_contra hge
      rw [Display.cell_outside _ _ _ (.inr (by omega))] at hcell
      exact Bool.noConfusion hcell
    exact ⟨c, hlt, hcell, hpix⟩

/-- The blit counts the rows that collide. -/
theorem hitRows_blit (s : State) (x y : Reg) (n : Nibble) : (s.blit x y n).hitRows s.disp = collidingRows s x y n := by
  have hy0 : (s.blit x y n).y0 = startRow s y := rfl
  have hrows : (s.blit x y n).bits.length = formRows s.profile n := by simp [blit_eq]
  have hhit : ∀ r, (s.blit x y n).hitsRow s.disp (startRow s y + r) = rowCollides s x y n r := fun r => by
    rw [Bool.eq_iff_iff, Blit.hitsRow_iff, rowCollides_iff]
    simp only [getLsbD_mask_blit]
  simp only [Blit.hitRows, hy0, hrows, hhit, collidingRows]

/-- VF after a draw (42_display.md R205). -/
theorem getV_draw_VF (s : State) (x y : Reg) (n : Nibble) :
    (s.draw x y n).getV VF =
      collisionFlag s.hires (collidingRows s x y n) (startRow s y) (formRows s.profile n) (planeHeight s.hires) := by
  rw [State.draw, State.getV_runBlit_VF, hitRows_blit, blit_eq]
  simp only [List.length_map, List.length_range]

theorem collidingRows_le (s : State) (x y : Reg) (n : Nibble) : collidingRows s x y n ≤ formRows s.profile n :=
  (List.countP_le_length).trans_eq List.length_range

theorem startRow_lt (s : State) (y : Reg) : startRow s y < planeHeight s.hires :=
  Nat.mod_lt _ (by cases s.hires <;> decide)

/-- Settles O34: the collision value in each resolution; colliding and clipped rows together are at most 32. -/
theorem drawWritesTheCollisionValue : Obligations.DrawWritesTheCollisionValue := by
  intro x y n s
  refine ⟨_, exec_drawInstr x y n s, fun hlow => ?_, fun hhigh => ?_⟩
  · rw [getV_draw_VF, hlow]
    simp only [collisionFlag, Bool.false_eq_true, if_false, flagByte_decide, Nat.pos_iff_ne_zero, gt_iff_lt]
  · have hcol := collidingRows_le s x y n
    have hrows := formRows_le s.profile n
    have hstart := startRow_lt s y
    rw [getV_draw_VF, collisionFlag, if_pos hhigh, BitVec.toNat_ofNat]
    omega

/-! ### Drawing twice -/

/-- Two states that agree on what a draw reads draw the same sprite. -/
theorem blit_congr {s t : State} {x y : Reg} (n : Nibble) (hprofile : t.profile = s.profile) (hmem : t.mem = s.mem)
    (hI : t.I = s.I) (hhires : t.hires = s.hires) (hx : t.getV x = s.getV x) (hy : t.getV y = s.getV y) :
    t.blit x y n = s.blit x y n := by
  have hrow : rowBits t n = rowBits s n := by
    funext r
    simp only [rowBits, byteFromI, hprofile, hmem, hI]
  simp only [blit_eq, startCol, startRow, hrow, hprofile, hhires, hx, hy]

/-- Settles O36: the first draw changes nothing that the second reads but the display, and a pixel flipped twice is as
it was. -/
theorem drawingTwiceRestoresTheDisplay : Obligations.DrawingTwiceRestoresTheDisplay := by
  intro x y n s t u hx hy hfirst hsecond
  obtain rfl := Host.Outcome.next.inj ((exec_drawInstr x y n s).symm.trans hfirst)
  obtain rfl := Host.Outcome.next.inj ((exec_drawInstr x y n _).symm.trans hsecond)
  have hblit : (s.draw x y n).blit x y n = s.blit x y n :=
    blit_congr n (State.profile_runBlit s _) (State.mem_runBlit s _) (State.I_runBlit s _) (State.hires_runBlit s _)
      (State.getV_runBlit_ne s _ hx) (State.getV_runBlit_ne s _ hy)
  apply Display.ext_cell
  intro c r
  rw [cell_draw, cell_draw, ← getLsbD_mask_blit, ← getLsbD_mask_blit, hblit, Bool.xor_assoc, Bool.xor_self,
    Bool.xor_false]

end Sys2Proof.Proofs
end

section
/-! The draw loop of 42_display.md R200: what its inner and outer loops have done after any number of rounds, and that
the draw with whole-row masks ends in the same state. -/

namespace Sys2Proof.Proofs

open Sys2Proof Sys2Proof.Machine Sys2Proof.Claims

/-! ### The inner loop -/

theorem cell_flipCell (d : Display) (c r c' r' : Nat) (hc : c < 128) (hr : r < 64) :
    (flipCell d c r).cell c' r' = (d.cell c' r' ^^ decide (c' = c ∧ r' = r)) := by
  rw [flipCell, Display.cell_ofRows]
  by_cases h : r' = r
  · subst h
    simp [hr, hc, Display.cell, BitVec.getLsbD_twoPow, eq_comm]
  · simp only [h, if_false, and_false, decide_false, Bool.xor_false]
    by_cases h64 : r' < 64
    · simp [h64, Display.cell]
    · simp [h64, Display.cell_outside d c' r' (by omega)]

/-- The inner loop over the first m columns of a sprite row. -/
def columnLoop (d : Display) (w cols x0 row : Nat) (bits : Word) (m : Nat) : Display × Bool :=
  (List.range m).foldl (columnBody w cols x0 row bits) (d, false)

theorem columnLoop_succ (d : Display) (w cols x0 row : Nat) (bits : Word) (m : Nat) :
    columnLoop d w cols x0 row bits (m + 1) = columnBody w cols x0 row bits (columnLoop d w cols x0 row bits m) m := by
  simp only [columnLoop, List.range_succ, List.foldl_append, List.foldl_cons, List.foldl_nil]

/-- The next column's bit of a row's mask. -/
theorem getLsbD_spriteMaskUpTo_succ (bits : Word) (cols x0 w m c : Nat) (hw : w ≤ 128) :
    (spriteMaskUpTo bits cols x0 w (m + 1)).getLsbD c =
      ((spriteMaskUpTo bits cols x0 w m).getLsbD c ^^
        (bits.getLsbD (cols - 1 - m) && decide (x0 + m < w) && decide (c = x0 + m))) := by
  rw [getLsbD_spriteMaskUpTo _ _ _ _ _ _ hw, getLsbD_spriteMaskUpTo _ _ _ _ _ _ hw]
  by_cases hc : c = x0 + m
  · subst hc
    simp [Bool.and_comm]
  · have hiff : (x0 ≤ c ∧ c < x0 + (m + 1) ∧ c < w) ↔ (x0 ≤ c ∧ c < x0 + m ∧ c < w) := by omega
    simp only [hiff, hc, decide_false, Bool.and_false, Bool.xor_false]

/-- A column not yet reached is not in the mask. -/
theorem getLsbD_spriteMaskUpTo_next (bits : Word) (cols x0 w m : Nat) (hw : w ≤ 128) :
    (spriteMaskUpTo bits cols x0 w m).getLsbD (x0 + m) = false := by
  simp [getLsbD_spriteMaskUpTo _ _ _ _ _ _ hw]

/-- The columns of a row's mask with one more column. -/
theorem getLsbD_spriteMaskUpTo_succ_iff (bits : Word) (cols x0 w m c : Nat) (hw : w ≤ 128) :
    (spriteMaskUpTo bits cols x0 w (m + 1)).getLsbD c = true ↔
      (spriteMaskUpTo bits cols x0 w m).getLsbD c = true ∨
        (bits.getLsbD (cols - 1 - m) = true ∧ x0 + m < w ∧ c = x0 + m) := by
  rw [getLsbD_spriteMaskUpTo_succ _ _ _ _ _ _ hw]
  by_cases hc : c = x0 + m
  · subst hc
    simp [getLsbD_spriteMaskUpTo_next _ _ _ _ _ hw]
  · simp [hc]

section
variable (d : Display) {w row : Nat} (cols x0 : Nat) (bits : Word) (hw : w ≤ 128) (hrow : row < 64)
include hw hrow

/-- After m columns the row's mask of m columns has been flipped. -/
theorem cell_columnLoop (m c r : Nat) :
    (columnLoop d w cols x0 row bits m).1.cell c r =
      (d.cell c r ^^ (decide (r = row) && (spriteMaskUpTo bits cols x0 w m).getLsbD c)) := by
  induction m with
  | zero => simp [columnLoop, spriteMaskUpTo]
  | succ m ih =>
    rw [columnLoop_succ, columnBody, getLsbD_spriteMaskUpTo_succ _ _ _ _ _ _ hw]
    split
    · rename_i hclip
      simp [ih, show ¬ x0 + m < w by omega]
    · rename_i hclip
      split
      · rename_i hbit
        rw [cell_flipCell _ _ _ c r (by omega) hrow, ih]
        by_cases hr : r = row <;> simp [hr, hbit, show x0 + m < w by omega]
      · rename_i hbit
        simp [ih, hbit]

/-- After m columns `hit` says whether a cell of the row was 1 where the mask of m columns is. -/
theorem hit_columnLoop (m : Nat) :
    (columnLoop d w cols x0 row bits m).2 = true ↔
      ∃ c, d.cell c row = true ∧ (spriteMaskUpTo bits cols x0 w m).getLsbD c = true := by
  induction m with
  | zero => simp [columnLoop, spriteMaskUpTo]
  | succ m ih =>
    have hcell : (columnLoop d w cols x0 row bits m).1.cell (x0 + m) row = d.cell (x0 + m) row := by
      rw [cell_columnLoop d cols x0 bits hw hrow, getLsbD_spriteMaskUpTo_next _ _ _ _ _ hw, Bool.and_false, Bool.xor_false]
    simp only [columnLoop_succ, columnBody, getLsbD_spriteMaskUpTo_succ_iff _ _ _ _ _ _ hw]
    split
    · rename_i hclip
      simp [ih, show ¬ x0 + m < w by omega]
    · rename_i hclip
      split
      · rename_i hbit
        have hlt : x0 + m < w := by omega
        simp only [hbit, hlt, true_and, and_or_left, exists_or, exists_eq_right, hcell]
        cases hd : d.cell (x0 + m) row with
        | true => simp
        | false => simpa using ih
      · rename_i hbit
        simp [ih, hbit]

end

/-! ### The outer loop -/

/-- The outer loop over the first m rows of a sprite. -/
def rowLoop (s : State) (x y : Reg) (n : Nibble) (m : Nat) : LoopState :=
  (List.range m).foldl (rowBody s x y n) { disp := s.disp, any := false, hitrows := 0 }

theorem rowLoop_succ (s : State) (x y : Reg) (n : Nibble) (m : Nat) :
    rowLoop s x y n (m + 1) = rowBody s x y n (rowLoop s x y n m) m := by
  simp only [rowLoop, List.range_succ, List.foldl_append, List.foldl_cons, List.foldl_nil]

/-- The inner loop of row m, on the display as the rows before it left it. -/
def innerLoop (s : State) (x y : Reg) (n : Nibble) (d : Display) (m : Nat) : Display × Bool :=
  columnLoop d (planeWidth s.hires) (formCols s.profile n) (startCol s x) (startRow s y + m) (rowBits s n m)
    (formCols s.profile n)

/-- A row below the bottom edge is clipped. -/
theorem rowBody_of_clipped {s : State} {y : Reg} {m : Nat} (x : Reg) (n : Nibble) (acc : LoopState)
    (h : planeHeight s.hires ≤ startRow s y + m) : rowBody s x y n acc m = acc := if_pos h

/-- A row inside the display runs the inner loop. -/
theorem rowBody_of_inside {s : State} {y : Reg} {m : Nat} (x : Reg) (n : Nibble) (acc : LoopState)
    (h : startRow s y + m < planeHeight s.hires) :
    rowBody s x y n acc m =
      { disp := (innerLoop s x y n acc.disp m).1
        any := acc.any || (innerLoop s x y n acc.disp m).2
        hitrows := acc.hitrows + (innerLoop s x y n acc.disp m).2.toNat } := if_neg (Nat.not_le.2 h)

/-- A clipped row has no pixel of the sprite. -/
theorem spritePixel_of_clipped {s : State} {y : Reg} {r : Nat} (x : Reg) (n : Nibble) (c : Nat)
    (h : planeHeight s.hires ≤ r) : spritePixel s x y n c r = false := by
  rw [spritePixel, decide_eq_false (by omega), Bool.false_and]

/-- The pixels of sprite row m are the bits of its mask. -/
theorem spritePixel_row {s : State} {x y : Reg} {n : Nibble} {m : Nat} (c : Nat) (hm : m < formRows s.profile n)
    (h : startRow s y + m < planeHeight s.hires) :
    spritePixel s x y n c (startRow s y + m) =
      (spriteMask (rowBits s n m) (formCols s.profile n) (startCol s x) (planeWidth s.hires)).getLsbD c := by
  rw [getLsbD_spriteMask _ _ _ _ _ (planeWidth_le _), spritePixel, Nat.add_sub_cancel_left]
  simp [hm, h]

/-- After m rows the pixels of those rows have been flipped. -/
theorem cell_rowLoop (s : State) (x y : Reg) (n : Nibble) {m : Nat} (hm : m ≤ formRows s.profile n) (c r : Nat) :
    (rowLoop s x y n m).disp.cell c r =
      (s.disp.cell c r ^^ (decide (r < startRow s y + m) && spritePixel s x y n c r)) := by
  induction m with
  | zero =>
    by_cases hr : r < startRow s y
    · have hpix : spritePixel s x y n c r = false := by
        rw [spritePixel, decide_eq_false (by omega), Bool.false_and]
      simp [rowLoop, hpix]
    · simp [rowLoop, hr]
  | succ m ih =>
    have ih := ih (by omega)
    by_cases hin : startRow s y + m < planeHeight s.hires
    · have hrow : startRow s y + m < 64 := lt_of_lt_of_le hin (planeHeight_le _)
      rw [rowLoop_succ, rowBody_of_inside x n _ hin, innerLoop, cell_columnLoop _ _ _ _ (planeWidth_le _) hrow, ih]
      by_cases hr : r = startRow s y + m
      · subst hr
        rw [spritePixel_row c (by omega) hin]
        simp [spriteMask]
      · have hiff : r < startRow s y + (m + 1) ↔ r < startRow s y + m := by omega
        simp [hr, hiff]
    · rw [rowLoop_succ, rowBody_of_clipped x n _ (by omega), ih]
      by_cases hr : r < startRow s y + m
      · simp [hr, show r < startRow s y + (m + 1) by omega]
      · simp [hr, spritePixel_of_clipped x n c (show planeHeight s.hires ≤ r by omega)]

/-- The inner loop of row m reports whether the row collides: the rows before it left its cells alone. -/
theorem hit_innerLoop {s : State} {x y : Reg} {n : Nibble} {m : Nat} (hm : m < formRows s.profile n)
    (hin : startRow s y + m < planeHeight s.hires) :
    (innerLoop s x y n (rowLoop s x y n m).disp m).2 = rowCollides s x y n m := by
  have hrow : startRow s y + m < 64 := lt_of_lt_of_le hin (planeHeight_le _)
  rw [Bool.eq_iff_iff, innerLoop, hit_columnLoop _ _ _ _ (planeWidth_le _) hrow, rowCollides_iff]
  simp only [spritePixel_row _ hm hin, spriteMask, cell_rowLoop s x y n hm.le, Nat.lt_irrefl, decide_false,
    Bool.false_and, Bool.xor_false]

/-- A clipped row does not collide. -/
theorem rowCollides_of_clipped {s : State} {y : Reg} {m : Nat} (x : Reg) (n : Nibble)
    (h : planeHeight s.hires ≤ startRow s y + m) : rowCollides s x y n m = false := by
  rw [Bool.eq_false_iff, ne_eq, rowCollides_iff]
  rintro ⟨c, -, hpix⟩
  rw [spritePixel_of_clipped x n c h] at hpix
  exact Bool.noConfusion hpix

/-- After m rows `hitrows` counts the colliding ones, and `any` says whether there is one. -/
theorem hitrows_rowLoop (s : State) (x y : Reg) (n : Nibble) {m : Nat} (hm : m ≤ formRows s.profile n) :
    (rowLoop s x y n m).hitrows = (List.range m).countP (rowCollides s x y n) ∧
      (rowLoop s x y n m).any = decide ((List.range m).countP (rowCollides s x y n) ≠ 0) := by
  induction m with
  | zero => exact ⟨rfl, rfl⟩
  | succ m ih =>
    obtain ⟨ihHits, ihAny⟩ := ih (by omega)
    rw [rowLoop_succ, List.range_succ, List.countP_append, List.countP_singleton]
    by_cases hin : startRow s y + m < planeHeight s.hires
    · rw [rowBody_of_inside x n _ hin, hit_innerLoop (by omega) hin, ihHits, ihAny]
      cases rowCollides s x y n m <;> simp
    · rw [rowBody_of_clipped x n _ (by omega), rowCollides_of_clipped x n (by omega), ihHits, ihAny]
      simp

/-! ### The whole draw -/

/-- Both ends of the draw flip the same cells. -/
theorem disp_rowLoop (s : State) (x y : Reg) (n : Nibble) :
    (rowLoop s x y n (formRows s.profile n)).disp = (s.draw x y n).disp := by
  apply Display.ext_cell
  intro c r
  rw [cell_rowLoop s x y n le_rfl, cell_draw]
  by_cases hr : r < startRow s y + formRows s.profile n
  · simp [hr]
  · have hpix : spritePixel s x y n c r = false := by
      rw [spritePixel, decide_eq_false (by omega), Bool.false_and]
    simp [hpix]

/-- The display's write and the flag's, as one update of the state. -/
theorem setDisp_setV_VF (s : State) (d : Display) (vf : Byte) :
    (s.setDisp d).setV VF vf = { s with disp := d, dispChanged := true, V := s.V.set 15 vf } := rfl

/-- A draw writes the display, disp_changed and VF. -/
theorem draw_eq (s : State) (x y : Reg) (n : Nibble) :
    s.draw x y n =
      { s with disp := (s.draw x y n).disp, dispChanged := true, V := s.V.set 15 ((s.draw x y n).getV VF) } := by
  rw [State.draw, State.runBlit_disp, State.getV_runBlit_VF, ← setDisp_setV_VF, State.runBlit]

/-- The loop's last lines: VF from the two counters. -/
theorem drawLoop_eq (s : State) (x y : Reg) (n : Nibble) :
    drawLoop s x y n =
      { s with
        disp := (rowLoop s x y n (formRows s.profile n)).disp
        dispChanged := true
        V := s.V.set 15
          (if s.hires then BitVec.ofNat 8 ((rowLoop s x y n (formRows s.profile n)).hitrows +
              (startRow s y + formRows s.profile n - planeHeight s.hires))
            else if (rowLoop s x y n (formRows s.profile n)).any then 1 else 0) } := rfl

/-- Settles O35: the loop flips the draw's cells, and its two counters give the draw's collision value. -/
theorem drawIsTheLoopOfTheRule : Obligations.DrawIsTheLoopOfTheRule := by
  intro x y n s
  obtain ⟨hhits, hany⟩ := hitrows_rowLoop s x y n (le_refl (formRows s.profile n))
  refine ⟨encodedAs_drawInstr x y n, (exec_drawInstr x y n s).trans (congrArg Host.Outcome.next ?_)⟩
  rw [draw_eq, drawLoop_eq, disp_rowLoop, hhits, hany, getV_draw_VF]
  rfl

end Sys2Proof.Proofs
end
